-- ==== Sys2Proof/Word.lean ====
section
/-! DEFINITION. The word types (00_scope.md R9, R10): bytes, 32-bit registers, 24-bit device offsets. -/

namespace Sys2Proof

/-- A byte. -/
abbrev Byte := BitVec 8

/-- A 32-bit register value. -/
abbrev Word := BitVec 32

/-- A device offset as a frame carries it: 24 bits (R7). -/
abbrev Off24 := BitVec 24

/-- A value stored into a 32-bit register: truncated to `v mod 2^32` (R9). -/
abbrev w32 (n : Nat) : Word := BitVec.ofNat 32 n

/-- The 24-bit address field of a frame (R201: `desc.addr[23:0]`). -/
abbrev off24 (n : Nat) : Off24 := BitVec.ofNat 24 n

end Sys2Proof
end

