-- ==== Sys2Proof/Config.lean ====
section
/-! DEFINITION. The configuration record `Cfg` (00_scope.md R6), its constraints, the example configuration EX1, and
the free values (00_scope.md R14): constants that nothing can evaluate. -/

namespace Sys2Proof

/-- Whether a frame issue, a DMA start or the bus set-up succeeds (R202, R205, R214). -/
inductive XResult where
  | ok
  | xfail
  deriving DecidableEq, Repr, Inhabited

/-- What can take a step, or happen to the block from outside (R200, R467, R500). -/
inductive Agent where
  /-- the command state machine -/
  | csm
  /-- the DMA engine's completion step (R208) -/
  | dma
  /-- the polling sequencer's sample step (R220) -/
  | sample
  /-- the tick source (R222) -/
  | tick
  /-- the reference device's completion step (R262) -/
  | device
  /-- the host's next access (R457, R465) -/
  | host
  /-- another agent's frame on the quad-SPI bus (R307, R518) -/
  | bus
  /-- the reset input is asserted (R500) -/
  | resetAssert
  /-- the reset input is released (R500) -/
  | resetRelease
  deriving DecidableEq, Repr, Inhabited

/-- A range of host addresses the platform lets the DMA port reach (R101; log 2). -/
structure Region where
  base : Nat
  size : Nat
  deriving DecidableEq, Repr

/-- The implementation parameters of R6, under their names there. -/
structure Cfg where
  capacity : Nat
  bias : Nat
  lowBound : Nat
  highBound : Nat
  blockSize : Nat
  blockCount : Nat
  pageSize : Nat
  sectorSize : Nat
  dummyCycles : Nat
  tWel : Nat
  tPp : Nat
  tSse : Nat
  tSe : Nat
  tBe : Nat
  tCmd : Nat
  /-- `TICK_PERIOD`, in microseconds -/
  tickPeriod : Nat
  pollInterval : Nat
  cshtDefault : BitVec 3
  cshtRead : BitVec 3
  cshtToggle : Bool
  busPrescaler : Nat
  fifoThreshold : Nat
  clockMode : Nat
  addrBytes : Nat
  opcWren : Byte
  opcRdsr : Byte
  opcRdvcr : Byte
  opcWrvcr : Byte
  opcQiofr : Byte
  opcEqpp : Byte
  opcSse : Byte
  opcSe : Byte
  opcBe : Byte
  srWipMask : Byte
  srWelMask : Byte
  vcrDcMask : Byte
  vcrDcShift : Nat
  erasedByte : Byte
  /-- `REG_BASE`, read by no step: what the window's own addresses do as host memory is log 33 -/
  regBase : Nat
  /-- `HOST_MEM_ADMIT`, as the list of the admitted ranges (log 2) -/
  hostMemAdmit : List Region
  hostDmaCoherent : Bool
  vcrPowerup : Byte
  /-- `WRVCR_CLEARS_WEL`: `none` leaves it a draw at each WRVCR (R255; log 20) -/
  wrvcrClearsWel : Option Bool
  devLatencyBounded : Bool
  devTmaxPp : Nat
  devTmaxSse : Nat
  devTmaxSe : Nat
  devTmaxBe : Nat
  deriving DecidableEq, Repr

/-- The nine instruction opcodes, in the order of R158. -/
def Cfg.opcodes (c : Cfg) : List Byte :=
  [c.opcWren, c.opcRdsr, c.opcRdvcr, c.opcWrvcr, c.opcQiofr, c.opcEqpp, c.opcSse, c.opcSe, c.opcBe]

/-- The constraints R6 puts on the parameters (and R155's range of the dummy count; log 28). -/
structure Cfg.Valid (c : Cfg) : Prop where
  capacity_pos : 1 ≤ c.capacity
  capacity_le : c.capacity ≤ 2 ^ 24
  bias_aligned : c.bias % 4 = 0
  bias_fits : c.bias + c.capacity ≤ 2 ^ 32
  low_ge : c.bias ≤ c.lowBound
  high_le : c.highBound ≤ c.bias + c.capacity - 1
  block_size : c.blockSize = 4096 ∨ c.blockSize = 65536
  block_count_pos : 1 ≤ c.blockCount
  blocks_fit : c.blockCount * c.blockSize ≤ c.capacity
  page_pow2 : ∃ k, c.pageSize = 2 ^ k
  page_ge : 4 ≤ c.pageSize
  page_dvd : c.pageSize ∣ c.blockSize
  sector_size : c.sectorSize = 512
  dummy_fits : c.dummyCycles ≤ c.vcrDcMask.toNat >>> c.vcrDcShift
  dummy_lt : c.dummyCycles < 32
  tWel_pos : 1 ≤ c.tWel
  tPp_pos : 1 ≤ c.tPp
  tPp_lt_sse : c.tPp < c.tSse
  tPp_lt_se : c.tPp < c.tSe
  tSse_lt_be : c.tSse < c.tBe
  tSe_lt_be : c.tSe < c.tBe
  tCmd_pos : 1 ≤ c.tCmd
  poll_interval_pos : 1 ≤ c.pollInterval
  csht_le : c.cshtRead ≤ c.cshtDefault
  addr_bytes : c.addrBytes = 3
  opcodes_distinct : c.opcodes.Nodup
  wip_single : ∃ i, i < 8 ∧ c.srWipMask.toNat = 2 ^ i
  wel_single : ∃ i, i < 8 ∧ c.srWelMask.toNat = 2 ^ i
  masks_distinct : c.srWipMask ≠ c.srWelMask
  vcr_field : ∃ w, 1 ≤ w ∧ c.vcrDcMask.toNat = (2 ^ w - 1) * 2 ^ c.vcrDcShift
  erased : c.erasedByte = 0xFF
  reg_base_aligned : c.regBase % 256 = 0

/-- R223: the budgets cover the device's maximum latencies; at equality a TIMEOUT is still possible (log 32). -/
def Cfg.budgetsCorrect (c : Cfg) : Bool :=
  c.devTmaxPp ≤ c.tPp && c.devTmaxSse ≤ c.tSse && c.devTmaxSe ≤ c.tSe && c.devTmaxBe ≤ c.tBe

/-- The example configuration EX1 (R6, last column); what R6 leaves OPEN there is a choice of this model (log 1). -/
def Cfg.ex1 : Cfg where
  capacity := 0x01000000
  bias := 0x90000000
  lowBound := 0x90000000
  highBound := 0x90FFFFFF
  blockSize := 4096
  blockCount := 4096
  pageSize := 256
  sectorSize := 512
  dummyCycles := 10
  tWel := 5000
  tPp := 5
  tSse := 800
  tSe := 3000
  tBe := 250000
  tCmd := 5000
  tickPeriod := 1000
  pollInterval := 16
  cshtDefault := 5
  cshtRead := 1
  cshtToggle := true
  busPrescaler := 0
  fifoThreshold := 0
  clockMode := 0
  addrBytes := 3
  opcWren := 0x06
  opcRdsr := 0x05
  opcRdvcr := 0x85
  opcWrvcr := 0x81
  opcQiofr := 0xEB
  opcEqpp := 0x12
  opcSse := 0x20
  opcSe := 0xD8
  opcBe := 0xC7
  srWipMask := 0x01
  srWelMask := 0x02
  vcrDcMask := 0xF0
  vcrDcShift := 4
  erasedByte := 0xFF
  regBase := 0x40000000
  hostMemAdmit := [{ base := 0, size := 2 ^ 32 }]
  hostDmaCoherent := true
  vcrPowerup := 0xFB
  wrvcrClearsWel := none
  devLatencyBounded := false
  devTmaxPp := 5
  devTmaxSse := 800
  devTmaxSe := 3000
  devTmaxBe := 250000

/-! The free values (log 4): what a draw gives once the lists of draws in the state are used up. No proof can see them. -/

/-- The result of an issue, a DMA start or a bus set-up (R202). -/
opaque Config.freeResult : Nat → XResult

/-- A number drawn: how much of a failed frame took effect (R204), which of a byte's values was moved (R120), and so on. -/
opaque Config.freeChoice : Nat → Nat

/-- A byte drawn: the unrelated status bits (R71), garbage read data (R256), an RDVCR while busy (R251). -/
opaque Config.freeByte : Nat → Byte

/-- The agent that steps next when the agenda is empty (R200; log 3). -/
opaque Config.freeAgent : Nat → Agent

end Sys2Proof
end

