-- ==== Sys2Proof/Syntax.lean ====
section
/-! DEFINITION. Syntax: the instructions of spec/opcode_table.json, the frame descriptor (30_encoding.md R155), the
register names (10_state.md R33) and the host's accesses. -/

namespace Sys2Proof

/-- The instructions: eleven host commands (R152), nine device instructions (R157). -/
inductive Instr where
  /-- NOP, host command 0x0 (R420) -/
  | nop
  /-- INIT, host command 0x1 (R421) -/
  | init
  /-- DEINIT, host command 0x2 (R422) -/
  | deinit
  /-- READ, host command 0x3 (R351) -/
  | read
  /-- WRITE, host command 0x4 (R357) -/
  | write
  /-- ERASE, host command 0x5 (R368) -/
  | erase
  /-- ERASE_VERIFY, host command 0x6 (R377) -/
  | eraseVerify
  /-- SYSTEM_ERROR, host command 0x7 (R423) -/
  | systemError
  /-- BULK_ERASE, host command 0x8 (R374) -/
  | bulkErase
  /-- WRITE_ENABLE, host command 0x9 (R424) -/
  | writeEnable
  /-- READ_STATUS, host command 0xA (R425) -/
  | readStatus
  /-- WREN, write enable (R252) -/
  | wren
  /-- RDSR, read status register: one data byte in (R253) -/
  | rdsr
  /-- RDVCR, read volatile configuration register: one data byte in (R254) -/
  | rdvcr
  /-- WRVCR, write volatile configuration register: the data byte out (R255) -/
  | wrvcr (v : Byte)
  /-- QIOFR, quad fast read: device offset, dummy clocks, byte count in (R256) -/
  | qiofr (addr : Off24) (dummy : BitVec 5) (n : Word)
  /-- EQPP, extended quad page program: device offset, data bytes out (R257) -/
  | eqpp (addr : Off24) (data : List Byte)
  /-- SSE, subsector erase (R258) -/
  | sse (addr : Off24)
  /-- SE, sector erase (R259) -/
  | se (addr : Off24)
  /-- BE, bulk erase (R260) -/
  | be
  deriving DecidableEq, Repr

/-- Whether an instruction is a host command (R150: the host port) or a device instruction (the quad-SPI port). -/
def Instr.isCommand : Instr → Bool
  | .nop | .init | .deinit | .read | .write | .erase | .eraseVerify | .systemError | .bulkErase | .writeEnable
  | .readStatus => true
  | .wren | .rdsr | .rdvcr | .wrvcr _ | .qiofr _ _ _ | .eqpp _ _ | .sse _ | .se _ | .be => false

/-- How many lines a phase of a frame uses (R155). -/
inductive Lines where
  | none
  | l1
  | l4
  deriving DecidableEq, Repr

/-- The direction of a frame's data phase (R155). -/
inductive Dir where
  | inp
  | out
  deriving DecidableEq, Repr

/-- How a frame's data moves (R155). -/
inductive Path where
  | inline
  | dma
  deriving DecidableEq, Repr

/-- The frame descriptor of R155, with the data bytes of an OUT phase once they are known (log 8). -/
structure Frame where
  instr : Byte
  amode : Lines
  addr : Off24
  dummy : BitVec 5
  dmode : Lines
  nbytes : Word
  dir : Option Dir
  path : Option Path
  payload : List Byte
  deriving DecidableEq, Repr

/-- The registers of the window (R33). -/
inductive RegName where
  | ctrl | cmd | addr | ptr | wcount | block | count | ecode
  | status | errinfo | errphase | syserrCode | syserrCount | devSr | devVcr | csht
  | geomBase | geomCapacity | geomBlockSize | geomBlockCount | geomWordsPerBlock | geomPageSize | geomSectorSize
  | geomDummy
  deriving DecidableEq, Repr

/-- One thing the host does next (log 5). Register accesses give the offset in the window and the width in bytes. -/
inductive HostOp where
  /-- write `v` to the register window at `off`, `width` bytes wide (R32) -/
  | write (off width : Nat) (v : Word)
  /-- read the register window at `off`, `width` bytes wide (R32) -/
  | read (off width : Nat)
  /-- read STATUS until DONE = 1 (R161, R163) -/
  | wait
  /-- the host writes one byte of its own memory (R120) -/
  | store (a : Word) (b : Byte)
  /-- the host reads one byte of its own memory (R120) -/
  | load (a : Word)
  deriving DecidableEq, Repr

end Sys2Proof
end

