-- ==== Sys2Proof/WellFormed.lean ====
section
/-! DEFINITION. Well-formed instructions: what an instruction must satisfy for its encoding to exist. -/

namespace Sys2Proof

/-- A DMA data phase moves at least one byte (R205: `n >= 1`; D11: "A zero-length quad read is not a valid frame"), and
its count fits the descriptor's 32 bits (R155). -/
def Instr.wf : Instr → Bool
  | .qiofr _ _ n => n != 0
  | .eqpp _ data => data.length != 0 && data.length < 2 ^ 32
  | .nop | .init | .deinit | .read | .write | .erase | .eraseVerify | .systemError | .bulkErase | .writeEnable
  | .readStatus | .wren | .rdsr | .rdvcr | .wrvcr _ | .sse _ | .se _ | .be => true

end Sys2Proof
end

