-- ==== Sys2Proof/Decode.lean ====
section
/-! DEFINITION. Decoding and encoding (30_encoding.md): the host command word (R151 to R153), the quad-SPI frame
(R155 to R159), the register offsets (R33), and the order of a frame on the wires (R108, R156). -/

namespace Sys2Proof

/-- Why an encoded item is no instruction. -/
inductive DecodeError where
  /-- `OP` in 0xB .. 0xF (R153) -/
  | reservedOp
  /-- `RSV` not zero (R153) -/
  | reservedBits
  /-- an instruction byte outside the nine of R157 (R159) -/
  | unknownInstr
  /-- the phases are not those of the instruction's row in R157 -/
  | badShape
  /-- a data phase of no bytes (D11, R205) -/
  | emptyData
  deriving DecidableEq, Repr

/-- An encoded item: one of the two kinds of R150. -/
inductive Encoded where
  | cmd (w : Word)
  | frame (f : Frame)
  deriving DecidableEq, Repr

/-! ## Host command word -/

/-- Field `OP`, bits 3:0 (R151). -/
def cmdOp (w : Word) : BitVec 4 := w.setWidth 4

/-- Field `RSV`, bits 31:4 (R151). -/
def cmdRsv (w : Word) : BitVec 28 := w.extractLsb' 4 28

/-- The opcode map of R152. -/
def decodeOp (op : BitVec 4) : Except DecodeError Instr :=
  match op.toNat with
  | 0x0 => .ok .nop
  | 0x1 => .ok .init
  | 0x2 => .ok .deinit
  | 0x3 => .ok .read
  | 0x4 => .ok .write
  | 0x5 => .ok .erase
  | 0x6 => .ok .eraseVerify
  | 0x7 => .ok .systemError
  | 0x8 => .ok .bulkErase
  | 0x9 => .ok .writeEnable
  | 0xA => .ok .readStatus
  | _ => .error .reservedOp

/-- The host command word (R151, R153). -/
def decodeCmd (w : Word) : Except DecodeError Instr :=
  if cmdRsv w ≠ 0 then .error .reservedBits else decodeOp (cmdOp w)

/-! ## Quad-SPI frame -/

/-- No address phase. -/
def Frame.noAddr (f : Frame) : Bool := f.amode = .none && f.addr = 0

/-- No data phase. -/
def Frame.noData (f : Frame) : Bool :=
  f.dmode = .none && f.nbytes = 0 && f.dir = none && f.path = none && f.payload = []

/-- A row of R157 with neither address nor data: WREN, BE. -/
def Frame.isBare (f : Frame) : Bool := f.noAddr && f.dummy = 0 && f.noData

/-- A row of R157 with an L1 address and no data: SSE, SE. -/
def Frame.isErase (f : Frame) : Bool := f.amode = .l1 && f.dummy = 0 && f.noData

/-- A row of R157 with one inline byte in: RDSR, RDVCR. -/
def Frame.isRegIn (f : Frame) : Bool :=
  f.noAddr && f.dummy = 0 && f.dmode = .l1 && f.nbytes = 1 && f.dir = some .inp && f.path = some .inline
    && f.payload = []

/-- The row of R157 with one inline byte out: WRVCR. -/
def Frame.isRegOut (f : Frame) : Bool :=
  f.noAddr && f.dummy = 0 && f.dmode = .l1 && f.nbytes = 1 && f.dir = some .out && f.path = some .inline

/-- The row of QIOFR in R157, of any dummy count and length. -/
def Frame.isQuadIn (f : Frame) : Bool :=
  f.amode = .l4 && f.dmode = .l4 && f.dir = some .inp && f.path = some .dma && f.payload = []

/-- The row of EQPP in R157, of any length, with its data. -/
def Frame.isQuadOut (f : Frame) : Bool :=
  f.amode = .l4 && f.dummy = 0 && f.dmode = .l4 && f.dir = some .out && f.path = some .dma
    && f.payload.length = f.nbytes.toNat

/-- A frame's instruction: its byte picks the row of R157 (R158), its phases must be the row's. -/
def decodeFrame (c : Cfg) (f : Frame) : Except DecodeError Instr :=
  if f.instr = c.opcWren then (if f.isBare then .ok .wren else .error .badShape)
  else if f.instr = c.opcRdsr then (if f.isRegIn then .ok .rdsr else .error .badShape)
  else if f.instr = c.opcRdvcr then (if f.isRegIn then .ok .rdvcr else .error .badShape)
  else if f.instr = c.opcWrvcr then
    match f.isRegOut, f.payload with
    | true, [v] => .ok (.wrvcr v)
    | _, _ => .error .badShape
  else if f.instr = c.opcQiofr then
    if f.isQuadIn then (if f.nbytes = 0 then .error .emptyData else .ok (.qiofr f.addr f.dummy f.nbytes))
    else .error .badShape
  else if f.instr = c.opcEqpp then
    if f.isQuadOut then (if f.nbytes = 0 then .error .emptyData else .ok (.eqpp f.addr f.payload))
    else .error .badShape
  else if f.instr = c.opcSse then (if f.isErase then .ok (.sse f.addr) else .error .badShape)
  else if f.instr = c.opcSe then (if f.isErase then .ok (.se f.addr) else .error .badShape)
  else if f.instr = c.opcBe then (if f.isBare then .ok .be else .error .badShape)
  else .error .unknownInstr

/-- Either kind of encoded item (R150). -/
def decode (c : Cfg) : Encoded → Except DecodeError Instr
  | .cmd w => decodeCmd w
  | .frame f => decodeFrame c f

/-! ## Encoder -/

/-- The opcode of a host command (R152), as the word with zero above it (R151). -/
def encodeCmd : Instr → Option Word
  | .nop => some 0x00000000
  | .init => some 0x00000001
  | .deinit => some 0x00000002
  | .read => some 0x00000003
  | .write => some 0x00000004
  | .erase => some 0x00000005
  | .eraseVerify => some 0x00000006
  | .systemError => some 0x00000007
  | .bulkErase => some 0x00000008
  | .writeEnable => some 0x00000009
  | .readStatus => some 0x0000000A
  | .wren | .rdsr | .rdvcr | .wrvcr _ | .qiofr _ _ _ | .eqpp _ _ | .sse _ | .se _ | .be => none

/-- A frame of an instruction byte alone (R157: WREN, BE). -/
def bareFrame (opc : Byte) : Frame :=
  { instr := opc, amode := .none, addr := 0, dummy := 0, dmode := .none, nbytes := 0, dir := none, path := none,
    payload := [] }

/-- A frame with an L1 address and no data (R157: SSE, SE). -/
def eraseFrame (opc : Byte) (a : Off24) : Frame := { bareFrame opc with amode := .l1, addr := a }

/-- A frame with one inline byte in (R157: RDSR, RDVCR). -/
def regInFrame (opc : Byte) : Frame :=
  { bareFrame opc with dmode := .l1, nbytes := 1, dir := some .inp, path := some .inline }

/-- A frame with one inline byte out (R157: WRVCR). -/
def regOutFrame (opc v : Byte) : Frame :=
  { bareFrame opc with dmode := .l1, nbytes := 1, dir := some .out, path := some .inline, payload := [v] }

/-- A quad read of `n` bytes (R157: QIOFR). -/
def quadInFrame (opc : Byte) (a : Off24) (dummy : BitVec 5) (n : Word) : Frame :=
  { bareFrame opc with
    amode := .l4, addr := a, dummy := dummy, dmode := .l4, nbytes := n, dir := some .inp, path := some .dma }

/-- A quad program of `n` bytes (R157: EQPP); the data is empty until the DMA has read it. -/
def quadOutFrame (opc : Byte) (a : Off24) (n : Word) (data : List Byte) : Frame :=
  { bareFrame opc with
    amode := .l4, addr := a, dmode := .l4, nbytes := n, dir := some .out, path := some .dma, payload := data }

/-- The frame of a device instruction (R157, R158). -/
def encodeFrame (c : Cfg) : Instr → Option Frame
  | .wren => some (bareFrame c.opcWren)
  | .rdsr => some (regInFrame c.opcRdsr)
  | .rdvcr => some (regInFrame c.opcRdvcr)
  | .wrvcr v => some (regOutFrame c.opcWrvcr v)
  | .qiofr a dummy n => some (quadInFrame c.opcQiofr a dummy n)
  | .eqpp a data => some (quadOutFrame c.opcEqpp a (w32 data.length) data)
  | .sse a => some (eraseFrame c.opcSse a)
  | .se a => some (eraseFrame c.opcSe a)
  | .be => some (bareFrame c.opcBe)
  | .nop | .init | .deinit | .read | .write | .erase | .eraseVerify | .systemError | .bulkErase | .writeEnable
  | .readStatus => none

/-- The encoded item of any instruction. -/
def encode (c : Cfg) (i : Instr) : Option Encoded :=
  match encodeCmd i, encodeFrame c i with
  | some w, _ => some (.cmd w)
  | none, some f => some (.frame f)
  | none, none => none

/-! ## The opcode table's words -/

/-- The frame that an instruction byte alone stands for: the byte's row of R157 with every operand bit zero, a data
phase of one byte and the configured dummy count where the row has them (log 8). -/
def frameOfByte (c : Cfg) (b : Byte) : Frame :=
  if b = c.opcRdsr ∨ b = c.opcRdvcr then regInFrame b
  else if b = c.opcWrvcr then regOutFrame b 0
  else if b = c.opcQiofr then quadInFrame b 0 (BitVec.ofNat 5 c.dummyCycles) 1
  else if b = c.opcEqpp then quadOutFrame b 0 1 [0]
  else if b = c.opcSse ∨ b = c.opcSe then eraseFrame b 0
  else bareFrame b

/-- The item a word of the opcode table stands for: a command word of 32 bits, or the instruction byte of a frame. -/
def itemOfTableWord (c : Cfg) (nbits w : Nat) : Encoded :=
  if nbits ≤ 8 then .frame (frameOfByte c (BitVec.ofNat 8 w)) else .cmd (w32 w)

/-- What the decoder reads from a word of the opcode table, under EX1's opcodes (R158). -/
def decodeTableWord (nbits w : Nat) : Option Instr := (decode Cfg.ex1 (itemOfTableWord Cfg.ex1 nbits w)).toOption

/-! ## A frame on the wires -/

/-- Most significant byte first (R108). -/
def Frame.addrBytes (f : Frame) : List Byte :=
  [f.addr.extractLsb' 16 8, f.addr.extractLsb' 8 8, f.addr.extractLsb' 0 8]

/-- A phase of a frame as it stands on the wires (R156). -/
inductive WirePhase where
  /-- the instruction byte, on one line -/
  | instruction (b : Byte)
  /-- the address, most significant byte first -/
  | address (l : Lines) (bytes : List Byte)
  /-- dummy clocks, no line driven for data -/
  | dummy (clocks : Nat)
  /-- the data bytes, in increasing address order (R108), driven by the block or by the device -/
  | data (l : Lines) (dir : Option Dir) (bytes : List Byte)
  deriving DecidableEq, Repr

/-- The data bytes of a frame: those the block sends, or those `rx` that the device drives. -/
def Frame.dataBytes (f : Frame) (rx : List Byte) : List Byte := if f.dir = some .inp then rx else f.payload

/-- A frame on the wires: instruction, address, dummy, data, in that order, a phase the frame does not have left out
(R156). -/
def Frame.phases (f : Frame) (rx : List Byte) : List WirePhase :=
  [.instruction f.instr] ++ (if f.amode = .none then [] else [.address f.amode f.addrBytes])
    ++ (if f.dummy = 0 then [] else [.dummy f.dummy.toNat])
    ++ (if f.dmode = .none then [] else [.data f.dmode f.dir (f.dataBytes rx)])

/-- The bytes the block itself drives, in the order of the phases (R156, R108). -/
def Frame.wireBytes (f : Frame) : List Byte :=
  (f.phases []).flatMap fun
    | .instruction b => [b]
    | .address _ bytes => bytes
    | .dummy _ => []
    | .data _ _ bytes => bytes

/-- Clocks for bytes on lines: eight or two a byte (R108, R156). -/
def Lines.clocks (l : Lines) (n : Nat) : Nat :=
  match l with
  | .none => 0
  | .l1 => 8 * n
  | .l4 => 2 * n

/-- A phase's length in bus clocks (R156). -/
def WirePhase.clocks : WirePhase → Nat
  | .instruction _ => 8
  | .address l bytes => l.clocks bytes.length
  | .dummy n => n
  | .data l _ bytes => l.clocks bytes.length

/-- The bits of a byte on one line, most significant first (R108). -/
def serialBits (b : Byte) : List Bool :=
  [b.getLsbD 7, b.getLsbD 6, b.getLsbD 5, b.getLsbD 4, b.getLsbD 3, b.getLsbD 2, b.getLsbD 1, b.getLsbD 0]

/-- The nibbles of a byte on four lines, high nibble first, bit `4k+3` on IO3 down to bit `4k` on IO0 (R108). -/
def quadNibbles (b : Byte) : List (BitVec 4) := [b.extractLsb' 4 4, b.extractLsb' 0 4]

/-- A frame's length in bus clocks (R156, R520). -/
def Frame.clocks (f : Frame) : Nat := 8 + f.amode.clocks 3 + f.dummy.toNat + f.dmode.clocks f.nbytes.toNat

/-- Byte lane `k` of a register value: bits `8k+7 .. 8k` (R109). -/
def byteLane (v : Word) (k : Nat) : Byte := v.extractLsb' (8 * k) 8

/-! ## Register offsets -/

/-- The offset of a register in the window (R33). -/
def RegName.offset : RegName → Nat
  | .ctrl => 0x00 | .cmd => 0x04 | .addr => 0x08 | .ptr => 0x0C
  | .wcount => 0x10 | .block => 0x14 | .count => 0x18 | .ecode => 0x1C
  | .status => 0x20 | .errinfo => 0x24 | .errphase => 0x28 | .syserrCode => 0x2C
  | .syserrCount => 0x30 | .devSr => 0x34 | .devVcr => 0x38 | .csht => 0x3C
  | .geomBase => 0x40 | .geomCapacity => 0x44 | .geomBlockSize => 0x48 | .geomBlockCount => 0x4C
  | .geomWordsPerBlock => 0x50 | .geomPageSize => 0x54 | .geomSectorSize => 0x58 | .geomDummy => 0x5C

/-- The register at an offset of the window; 0x60 to 0xFC are reserved (R32, R33). -/
def regAt (off : Nat) : Option RegName :=
  match off with
  | 0x00 => some .ctrl | 0x04 => some .cmd | 0x08 => some .addr | 0x0C => some .ptr
  | 0x10 => some .wcount | 0x14 => some .block | 0x18 => some .count | 0x1C => some .ecode
  | 0x20 => some .status | 0x24 => some .errinfo | 0x28 => some .errphase | 0x2C => some .syserrCode
  | 0x30 => some .syserrCount | 0x34 => some .devSr | 0x38 => some .devVcr | 0x3C => some .csht
  | 0x40 => some .geomBase | 0x44 => some .geomCapacity | 0x48 => some .geomBlockSize | 0x4C => some .geomBlockCount
  | 0x50 => some .geomWordsPerBlock | 0x54 => some .geomPageSize | 0x58 => some .geomSectorSize
  | 0x5C => some .geomDummy
  | _ => none

end Sys2Proof
end

