-- ==== Sys2Proof/Machine/State.lean ====
section
/-! DEFINITION. The state (10_state.md): host-visible registers, the block's hidden state, the reference device, host
memory, the parameters, what the environment does next, and the outputs; the reasons a step stops; the state after
reset. -/

namespace Sys2Proof.Machine

/-- `STATUS.PHASE`: the CSM's phases (R44). -/
inductive Phase where
  | idle
  | check
  | busInit
  | welIssue
  | welPoll
  | frame
  | waitTx
  | waitRx
  | busyPoll
  | compare
  | advance
  | halted
  deriving DecidableEq, Repr

/-- `STATUS.INIT_STATE`: the lifecycle states (R43). -/
inductive InitState where
  | uninit
  | busReady
  | ready
  | failed
  deriving DecidableEq, Repr

/-- `STATUS.ERRCODE`: the error codes (R451). -/
inductive ErrCode where
  | none
  | range
  | param
  | transport
  | timeout
  | verifyMismatch
  | configMismatch
  | notReady
  | state
  | illegalCmd
  deriving DecidableEq, Repr

/-- `st.sub`: the step of the configure sequence (R60, R305). -/
inductive Sub where
  | none
  | cfgRd0
  | cfgWr
  | cfgRd1
  deriving DecidableEq, Repr

/-- `st.verdict`: the verdict of the last poll (R60, R221). -/
inductive Verdict where
  | none
  | matched
  | timeout
  deriving DecidableEq, Repr

/-- Where a read transfer puts its bytes (R205). -/
inductive DmaDst where
  | host (a : Word)
  | scratch
  deriving DecidableEq, Repr

/-- `st.dma`: the transfer in flight (R60, R206), with the address and dummy count of the frame it keeps open (log 10). -/
inductive Dma where
  | idle
  | rx (dst : DmaDst) (n : Nat) (addr : Off24) (dummy : BitVec 5)
  | tx (src : Word) (n : Nat) (addr : Off24)
  deriving DecidableEq, Repr

/-- The values `bus_init` programs (R214). -/
structure BusSetup where
  prescaler : Nat
  fifoThreshold : Nat
  csht : BitVec 3
  clockMode : Nat
  addrBytes : Nat
  deriving DecidableEq, Repr

/-- `st.bus`: OFF, or ON with the values programmed (R63, R214; log 27). -/
inductive BusState where
  | off
  | on (setup : BusSetup)
  deriving DecidableEq, Repr

/-- Which erase runs in the device (R258 to R260), for its maximum latency (R263; log 29). -/
inductive EraseKind where
  | sse
  | se
  | be
  deriving DecidableEq, Repr

/-- `dev.op`: the device's operation in progress (R73). -/
inductive DevOp where
  | none
  | program (base : Nat) (latch : List Byte)
  | erase (kind : EraseKind) (base size : Nat)
  deriving DecidableEq, Repr

/-- Bytes by address: the bytes that differ from what an unlisted address reads as, addresses rising. -/
abbrev Memory := List Host.Cell

/-- The host-visible registers and fields (R33, R34, R42), less those computed from other state. -/
structure Regs where
  /-- CTRL.IE (R34) -/
  ie : Bool
  /-- CTRL.HALT_ON_ERR (R34) -/
  haltOnErr : Bool
  /-- CMD (R35) -/
  cmd : Word
  /-- ADDR (R36) -/
  addr : Word
  /-- PTR (R37) -/
  ptr : Word
  /-- WCOUNT (R38) -/
  wcount : Word
  /-- BLOCK (R39) -/
  block : Word
  /-- COUNT (R40) -/
  count : Word
  /-- ECODE (R41) -/
  ecode : Word
  /-- STATUS.BUSY (R42) -/
  busy : Bool
  /-- STATUS.DONE (R42) -/
  done : Bool
  /-- STATUS.ERR (R42) -/
  err : Bool
  /-- STATUS.OVR (R42) -/
  ovr : Bool
  /-- STATUS.INIT_STATE (R43) -/
  initState : InitState
  /-- STATUS.ERRCODE (R451) -/
  errcode : ErrCode
  /-- STATUS.PHASE (R44) -/
  phase : Phase
  /-- ERRINFO (R46) -/
  errinfo : Word
  /-- ERRPHASE (R47) -/
  errphase : Phase
  /-- SYSERR_CODE (R48) -/
  syserrCode : Word
  /-- SYSERR_COUNT (R49) -/
  syserrCount : Word
  /-- DEV_SR bits 7:0 (R50) -/
  devSr : Byte
  /-- DEV_VCR bits 7:0 (R51) -/
  devVcr : Byte
  deriving DecidableEq, Repr

/-- The block's hidden state (R60), under the names there. -/
structure Hidden where
  op : BitVec 4
  sub : Sub
  cur : Word
  stop : Word
  ptr : Word
  len : Word
  chunk : Word
  bi : Word
  bn : Word
  vcrProg : Byte
  tc : Bool
  rc : Bool
  pollActive : Bool
  pollMask : Byte
  pollMatch : Byte
  pollBudget : Word
  pollElapsed : Word
  verdict : Verdict
  scratch : List Byte
  bus : BusState
  csht : BitVec 3
  dma : Dma
  deriving DecidableEq, Repr

/-- The reference flash device (R70 to R73, R250). `dev.SR` is kept as its latch bit WEL; its busy bit is
`op ≠ none` (R73) and its other six bits are drawn at each sample (R71; log 11). -/
structure Device where
  array : Memory
  wel : Bool
  vcr : Byte
  op : DevOp
  age : Word
  deriving DecidableEq, Repr

/-- The draws to come (R14): the environment's choices, in the order they are used; past the end of a list the opaque
free values of Config stand, applied to `count` (log 4). -/
structure Draws where
  results : List XResult
  choices : List Nat
  bytes : List Byte
  count : Nat
  deriving DecidableEq, Repr

/-- What the environment does next. -/
structure Env where
  /-- the agents in the order they step (R467; log 3) -/
  agenda : List Agent
  /-- the host's coming accesses (R163; log 5) -/
  prog : List HostOp
  /-- the frames another agent presents on the bus (R307, R518; log 6) -/
  foreign : List Frame
  draws : Draws
  /-- the reset input is asserted (R500; log 16) -/
  inReset : Bool
  /-- host bytes changed while a WRITE runs, each with an earlier value (R120; log 19) -/
  stale : List Host.Cell
  deriving DecidableEq, Repr

/-- A frame the block sent, with its data bytes once they have moved (R156, R164; log 9): the bytes sent stand in the
frame, the bytes the device drove beside it. -/
structure BusItem where
  /-- which command sent it, by the count of the commands accepted -/
  cmd : Nat
  frame : Frame
  /-- whether its issue succeeded (R202) -/
  result : XResult
  /-- the bytes the device drove in the frame's data phase -/
  rx : List Byte
  deriving DecidableEq, Repr

/-- What the block and the device drive outward (log 9). -/
structure Ports where
  /-- the frames the block sent, newest first -/
  busLog : List BusItem
  /-- the bytes the device drove in the last data-in phase -/
  busRx : List Byte
  /-- what the last host read returned -/
  hostRd : Word
  /-- how many commands the block has accepted -/
  commands : Nat
  deriving DecidableEq, Repr

/-- The whole state (R30). `cfg` is the parameter record `Cfg`: no step changes it (log 1). -/
structure State where
  cfg : Cfg
  reg : Regs
  st : Hidden
  dev : Device
  /-- host memory (R101) -/
  mem : Memory
  env : Env
  out : Ports
  deriving DecidableEq, Repr

/-- Why the machine stops with a fault. -/
inductive Fault where
  /-- Raised by a host command's meaning when the CSM is in a phase that command does not have, where the spec gives no
  step (log 22). Safe: no state a run reaches is of this kind, and the machine stops there. -/
  | noStepInPhase
  deriving DecidableEq, Repr

/-- Why the model takes no step. -/
inductive Refusal where
  /-- Raised by `exec` for an instruction that has no meaning yet. Safe: nothing runs. -/
  | notModelled (mnemonic : String)
  /-- Raised by the host port for a register access that is not 32 bits wide (R32, R452). Safe: the spec refuses it. -/
  | badAccessWidth
  /-- Raised by the host port for a register access off a word boundary (R32, R452). Safe: the spec refuses it. -/
  | badAccessAlignment
  /-- Raised by the host port for an offset outside the 256-byte window (R32): no access of this block. Safe. -/
  | outsideWindow
  deriving DecidableEq, Repr

/-- What a step answers. -/
abbrev Result := Host.Outcome State Fault Refusal

/-! ## Reset values -/

/-- R33, R34, R42, R80. -/
def Regs.reset : Regs :=
  { ie := false, haltOnErr := false, cmd := 0, addr := 0, ptr := 0, wcount := 0, block := 0, count := 0, ecode := 0,
    busy := false, done := false, err := false, ovr := false, initState := .uninit, errcode := .none, phase := .idle,
    errinfo := 0, errphase := .idle, syserrCode := 0, syserrCount := 0, devSr := 0, devVcr := 0 }

/-- R81; the scratch buffer's contents are given, since R81 leaves them unspecified. -/
def Hidden.reset (c : Cfg) (scratch : List Byte) : Hidden :=
  { op := 0, sub := .none, cur := 0, stop := 0, ptr := 0, len := 0, chunk := 0, bi := 0, bn := 0, vcrProg := 0,
    tc := false, rc := false, pollActive := false, pollMask := 0, pollMatch := 0, pollBudget := 0, pollElapsed := 0,
    verdict := .none, scratch := scratch, bus := .off, csht := c.cshtDefault, dma := .idle }

/-- The device at power-up (R82, R502), its array unlisted and so erased (log 13), its age 0 (log 21). -/
def Device.powerUp (c : Cfg) : Device := { array := [], wel := false, vcr := c.vcrPowerup, op := .none, age := 0 }

/-- Nothing scheduled and no draw fixed (logs 3 to 6). -/
def Env.quiet : Env :=
  { agenda := [], prog := [], foreign := [], draws := { results := [], choices := [], bytes := [], count := 0 },
    inReset := false, stale := [] }

/-- The machine right after reset, the device at power-up, under EX1 (R80 to R82, R500, R502; log 1). -/
def State.reset : State :=
  { cfg := Cfg.ex1, reg := Regs.reset, st := Hidden.reset Cfg.ex1 (List.replicate Cfg.ex1.sectorSize 0),
    dev := Device.powerUp Cfg.ex1, mem := [], env := Env.quiet, out := { busLog := [], busRx := [], hostRd := 0, commands := 0 } }

end Sys2Proof.Machine
end

