-- ==== Sys2Proof/Machine/Flags.lean ====
section
/-! DEFINITION. Codes and flags: the encodings of the enumerated fields, STATUS and CTRL as words, IRQ, the device's
status byte, and the voter's masked match. -/

namespace Sys2Proof.Machine

/-- The code of a phase (R44). -/
def Phase.code : Phase → BitVec 5
  | .idle => 0x00 | .check => 0x01 | .busInit => 0x02 | .welIssue => 0x03 | .welPoll => 0x04 | .frame => 0x05
  | .waitTx => 0x06 | .waitRx => 0x07 | .busyPoll => 0x08 | .compare => 0x09 | .advance => 0x0A | .halted => 0x0B

/-- The value of a lifecycle state (R43). -/
def InitState.code : InitState → BitVec 4
  | .uninit => 0 | .busReady => 1 | .ready => 2 | .failed => 3

/-- The value of an error code (R451). -/
def ErrCode.code : ErrCode → Byte
  | .none => 0x00 | .range => 0x01 | .param => 0x02 | .transport => 0x03 | .timeout => 0x04 | .verifyMismatch => 0x05
  | .configMismatch => 0x06 | .notReady => 0x07 | .state => 0x08 | .illegalCmd => 0x09

/-- One bit. -/
def bit (b : Bool) : BitVec 1 := BitVec.ofBool b

/-- STATUS.HALTED: 1 iff the CSM is in phase HALTED (R42). -/
def Regs.halted (r : Regs) : Bool := r.phase = .halted

/-- STATUS as the host reads it (R42); reserved bits read zero. -/
def statusWord (r : Regs) : Word :=
  (0#3 ++ r.phase.code ++ r.errcode.code ++ 0#4 ++ r.initState.code ++ 0#3
    ++ bit r.halted ++ bit r.ovr ++ bit r.err ++ bit r.done ++ bit r.busy)

/-- CTRL as the host reads it (R34); reserved bits read zero. -/
def ctrlWord (r : Regs) : Word := 0#30 ++ bit r.haltOnErr ++ bit r.ie

/-- The IRQ output: `CTRL.IE & STATUS.DONE` (R54, R466). -/
def irq (s : State) : Bool := s.reg.ie && s.reg.done

/-- Writing CTRL (R34); reserved bits are ignored. -/
def writeCtrl (v : Word) (r : Regs) : Regs := { r with ie := v.getLsbD 0, haltOnErr := v.getLsbD 1 }

/-- Writing STATUS: write 1 to clear DONE, ERR and OVR; clearing ERR leaves HALTED (R42, R465). -/
def writeStatus (v : Word) (r : Regs) : Regs :=
  { r with
    done := r.done && !v.getLsbD 1
    err := r.err && !v.getLsbD 2
    ovr := r.ovr && !v.getLsbD 3
    phase := if v.getLsbD 2 ∧ r.phase = .halted then .idle else r.phase }

/-- The status byte the device drives: WIP from the running operation, WEL from the latch, the other bits as drawn
(R253, R71). -/
def srByte (c : Cfg) (d : Device) (other : Byte) : Byte :=
  (other &&& ~~~(c.srWipMask ||| c.srWelMask))
    ||| (if d.op ≠ .none then c.srWipMask else 0) ||| (if d.wel then c.srWelMask else 0)

/-- The dummy-cycle field of a VCR value (R72). -/
def vcrDummy (c : Cfg) (v : Byte) : Nat := (v &&& c.vcrDcMask).toNat >>> c.vcrDcShift

/-- The VCR value that `configure` programs: only the dummy field replaced (R154, R305). -/
def vcrProgram (c : Cfg) (v : Byte) : Byte :=
  (v &&& ~~~c.vcrDcMask) ||| (BitVec.ofNat 8 (c.dummyCycles <<< c.vcrDcShift) &&& c.vcrDcMask)

/-- The voter on one sample: the masked match first, then the budget, whose end is at equality (R220, R221; beside R223:
log 32). -/
def voter (mask target : Byte) (budget elapsed : Word) (sr : Byte) : Verdict :=
  if sr &&& mask = target then .matched else if budget ≤ elapsed then .timeout else .none

/-- A 32-bit counter's next value, stopping at 0xFFFF_FFFF (R49, R222, R461). -/
def satSucc (w : Word) : Word := if w = 0xFFFFFFFF then w else w + 1

end Sys2Proof.Machine
end

