-- ==== Sys2Proof/Machine/Ops.lean ====
section
/-! DEFINITION. The named operations: bytes of memory, draws, the phase, the success and failure sequences and the
release (60_exceptions.md section 3 and 4), command acceptance, polls, and the reset of the block. -/

namespace Sys2Proof.Machine

/-! ## Bytes of memory -/

/-- The byte at an address; `d` is what an unlisted address reads as. -/
def Memory.read (d : Byte) : Memory → Nat → Byte
  | [], _ => d
  | (k, v) :: t, a => if k = a then v else Memory.read d t a

/-- Writing one byte: the entry goes where its address belongs, and a byte equal to `d` has no entry. -/
def Memory.write (d : Byte) : Memory → Nat → Byte → Memory
  | [], a, b => if b = d then [] else [(a, b)]
  | (k, v) :: t, a, b =>
    if a < k then (if b = d then (k, v) :: t else (a, b) :: (k, v) :: t)
    else if a = k then (if b = d then t else (a, b) :: t)
    else (k, v) :: Memory.write d t a b

/-- Bytes to consecutive addresses, the first at `a` (R12: `MemWrite`). -/
def Memory.writeList (d : Byte) : Memory → Nat → List Byte → Memory
  | m, _, [] => m
  | m, a, b :: bs => Memory.writeList d (Memory.write d m a b) (a + 1) bs

/-- `n` bytes from consecutive addresses (R12: `MemRead`). -/
def Memory.readList (d : Byte) (m : Memory) (a n : Nat) : List Byte :=
  (List.range n).map fun i => Memory.read d m (a + i)

/-- The canonical form: addresses strictly rising, no entry equal to what an unlisted address reads as. -/
abbrev Memory.wf (d : Byte) (m : Memory) : Prop :=
  m.Pairwise (fun x y => x.1 < y.1) ∧ ∀ c ∈ m, c.2 ≠ d

/-- Every listed address is one of the `n` addresses that exist. -/
abbrev Memory.below (n : Nat) (m : Memory) : Prop := ∀ c ∈ m, c.1 < n

/-- What host memory reads as where nothing is listed (log 12). -/
def hostDefault : Byte := 0x00

/-- What the flash array reads as where nothing is listed: the erased byte (log 13). -/
def flashDefault : Byte := 0xFF

/-- One byte of host memory. -/
def State.hostByte (s : State) (a : Nat) : Byte := Memory.read hostDefault s.mem a

/-- One byte of the flash array, `dev.Array[o]` (R70). -/
def State.flashByte (s : State) (o : Nat) : Byte := Memory.read flashDefault s.dev.array o

/-- Programming an array byte: bits are only cleared (R257); an offset past CAPACITY is no byte of the array (log 14). -/
def programByte (cap : Nat) (m : Memory) (o : Nat) (b : Byte) : Memory :=
  if o < cap then Memory.write flashDefault m o (Memory.read flashDefault m o &&& b) else m

/-- Programming a page latch at `base` (R262). -/
def programBytes (cap : Nat) : Memory → Nat → List Byte → Memory
  | m, _, [] => m
  | m, o, b :: bs => programBytes cap (programByte cap m o b) (o + 1) bs

/-- Erasing `size` bytes at `base`: each becomes 0xFF, so none of them stays listed (R262). -/
def eraseBytes (m : Memory) (base size : Nat) : Memory := m.filter fun c => c.1 < base || base + size ≤ c.1

/-- `HOST_MEM_ADMIT(a, n)`: the range lies below 2^32 and inside one admitted region (R101; log 2). -/
def admits (c : Cfg) (a n : Nat) : Bool :=
  a + n ≤ 2 ^ 32 && c.hostMemAdmit.any fun r => r.base ≤ a && a + n ≤ r.base + r.size

/-! ## Draws -/

/-- The next result of an issue, a start or a bus set-up (R202). -/
def takeResult (s : State) : XResult × State :=
  match s.env.draws.results with
  | r :: rs => (r, { s with env.draws.results := rs })
  | [] => (Config.freeResult s.env.draws.count, { s with env.draws.count := s.env.draws.count + 1 })

/-- The next number drawn. -/
def takeChoice (s : State) : Nat × State :=
  match s.env.draws.choices with
  | k :: ks => (k, { s with env.draws.choices := ks })
  | [] => (Config.freeChoice s.env.draws.count, { s with env.draws.count := s.env.draws.count + 1 })

/-- The next byte drawn. -/
def takeByte (s : State) : Byte × State :=
  match s.env.draws.bytes with
  | b :: bs => (b, { s with env.draws.bytes := bs })
  | [] => (Config.freeByte s.env.draws.count, { s with env.draws.count := s.env.draws.count + 1 })

/-- `n` bytes drawn. -/
def takeBytes : Nat → State → List Byte × State
  | 0, s => ([], s)
  | n + 1, s =>
    let r := takeByte s
    let q := takeBytes n r.2
    (r.1 :: q.1, q.2)

/-- The agent that steps next, taken from the agenda (log 3). -/
def takeAgent (s : State) : Agent × State :=
  match s.env.agenda with
  | a :: as => (a, { s with env.agenda := as })
  | [] => (Config.freeAgent s.env.draws.count, { s with env.draws.count := s.env.draws.count + 1 })

/-! ## Phase, completion, failure and release -/

/-- `phase <- P` (R11). -/
def toPhase (p : Phase) (s : State) : State := { s with reg.phase := p }

/-- The system-error hook (R461). -/
def hook (c : Word) (s : State) : State :=
  { s with reg.syserrCode := c, reg.syserrCount := satSucc s.reg.syserrCount }

/-- The success sequence `finish()` (R459). -/
def finish (s : State) : State :=
  { s with
    st.sub := .none
    reg.busy := false
    reg.done := true
    reg.err := false
    reg.errcode := .none
    reg.phase := .idle }

/-- The failure sequence `raise Fail(code, info)`, the block's "trap entry" (R460, R464). -/
def raise (code : ErrCode) (info : Word) (s : State) : State :=
  { s with
    st.csht := s.cfg.cshtDefault
    st.pollActive := false
    st.verdict := .none
    st.sub := .none
    reg.errcode := code
    reg.errinfo := info
    reg.errphase := s.reg.phase
    reg.initState := if s.st.op = 1 ∧ s.reg.initState = .busReady then .failed else s.reg.initState
    reg.syserrCode := code.code.setWidth 32
    reg.syserrCount := satSucc s.reg.syserrCount
    reg.busy := false
    reg.done := true
    reg.err := true
    reg.phase := if s.reg.haltOnErr then .halted else .idle }

/-- Release from HALTED, the block's "trap return", and the other write-1-to-clear bits: a host write to STATUS (R465). -/
def release (v : Word) (s : State) : State := { s with reg := writeStatus v s.reg }

/-- Acceptance of a command word (R457). -/
def acceptCmd (w : Word) (s : State) : State :=
  { s with
    reg.cmd := w
    st.op := cmdOp w
    st.sub := .none
    reg.done := false
    reg.err := false
    reg.errcode := .none
    reg.busy := true
    reg.phase := .check
    env.stale := []
    out.commands := s.out.commands + 1 }

/-- A host write to CMD: accepted when the CSM is idle, dropped with OVR set when it is busy or halted (R457). -/
def writeCmd (w : Word) (s : State) : State :=
  if s.reg.busy = true ∨ s.reg.phase = .halted then { s with reg.ovr := true } else acceptCmd w s

/-! ## Polls -/

/-- `poll(mask, match, budget)` (R219); the budget is stored in 32 bits (R9; log 26). -/
def startPoll (mask target : Byte) (budget : Nat) (s : State) : State :=
  { s with
    st.pollMask := mask
    st.pollMatch := target
    st.pollBudget := w32 budget
    st.pollElapsed := 0
    st.verdict := .none
    st.pollActive := true }

/-- `busy_wait(budget)` (R303). -/
def busyWait (budget : Nat) (s : State) : State := toPhase .busyPoll (startPoll s.cfg.srWipMask 0 budget s)

/-- Chip select is asserted while a frame is open, that is while a transfer is in flight (R201, R208). -/
def State.chipSelect (s : State) : Bool := s.st.dma ≠ .idle

/-! ## The register window -/

/-- A register as the host reads it (R33). -/
def readReg (r : RegName) (s : State) : Word :=
  match r with
  | .ctrl => ctrlWord s.reg
  | .cmd => s.reg.cmd
  | .addr => s.reg.addr
  | .ptr => s.reg.ptr
  | .wcount => s.reg.wcount
  | .block => s.reg.block
  | .count => s.reg.count
  | .ecode => s.reg.ecode
  | .status => statusWord s.reg
  | .errinfo => s.reg.errinfo
  | .errphase => s.reg.errphase.code.setWidth 32
  | .syserrCode => s.reg.syserrCode
  | .syserrCount => s.reg.syserrCount
  | .devSr => s.reg.devSr.setWidth 32
  | .devVcr => s.reg.devVcr.setWidth 32
  | .csht => s.st.csht.setWidth 32
  | .geomBase => w32 s.cfg.bias
  | .geomCapacity => w32 s.cfg.capacity
  | .geomBlockSize => w32 s.cfg.blockSize
  | .geomBlockCount => w32 s.cfg.blockCount
  | .geomWordsPerBlock => w32 (s.cfg.blockSize / 4)
  | .geomPageSize => w32 s.cfg.pageSize
  | .geomSectorSize => w32 s.cfg.sectorSize
  | .geomDummy => w32 s.cfg.dummyCycles

/-- A word of the window as the host reads it; reserved offsets read zero (R32). -/
def readWindow (off : Nat) (s : State) : Word :=
  match regAt off with
  | some r => readReg r s
  | none => 0

/-- A host write of a register (R33, R457, R458, R465); a write to a read-only register is ignored (R32). -/
def writeReg (r : RegName) (v : Word) (s : State) : State :=
  match r with
  | .ctrl => { s with reg := writeCtrl v s.reg }
  | .cmd => writeCmd v s
  | .addr => { s with reg.addr := v }
  | .ptr => { s with reg.ptr := v }
  | .wcount => { s with reg.wcount := v }
  | .block => { s with reg.block := v }
  | .count => { s with reg.count := v }
  | .ecode => { s with reg.ecode := v }
  | .status => release v s
  | .errinfo | .errphase | .syserrCode | .syserrCount | .devSr | .devVcr | .csht | .geomBase | .geomCapacity
  | .geomBlockSize | .geomBlockCount | .geomWordsPerBlock | .geomPageSize | .geomSectorSize | .geomDummy => s

/-- A host write of a word of the window; reserved offsets ignore it (R32). -/
def writeWindow (off : Nat) (v : Word) (s : State) : State :=
  match regAt off with
  | some r => writeReg r v s
  | none => s

end Sys2Proof.Machine
end

