-- ==== Sys2Proof/Machine/Operands.lean ====
section
/-! DEFINITION. Operands: what CHECK derives from the operand registers (R154), the lifecycle and operand checks (R455,
R456), the failure information (R462), and where the CSM takes its command from. -/

namespace Sys2Proof.Machine

/-! ## Addresses and lengths -/

/-- `to_device_offset(L) = L - BIAS` (R103). -/
def toDeviceOffset (c : Cfg) (l : Nat) : Nat := l - c.bias

/-- `to_logical_address(o) = o + BIAS` (R103). -/
def toLogicalAddress (c : Cfg) (o : Nat) : Nat := o + c.bias

/-- Byte length of a READ or WRITE: `4 * WCOUNT`, exact (R154). -/
def byteLength (s : State) : Nat := 4 * s.reg.wcount.toNat

/-- The first chunk of a write: up to the end of the page or of the request (R358). -/
def firstChunk (page cur stop : Nat) : Nat := min (page - cur % page) (stop - cur)

/-- A later chunk: a page or what is left (R364). -/
def nextChunk (page cur stop : Nat) : Nat := min page (stop - cur)

/-- `BIAS + st.cur`, the failure information of a transfer (R462). -/
def cursorInfo (s : State) : Word := w32 (s.cfg.bias + s.st.cur.toNat)

/-! ## Checks -/

/-- What a failing check raises. -/
abbrev CheckFailure := ErrCode × Word

/-- INIT needs UNINIT (R455). -/
def checkUninit (s : State) : Option CheckFailure :=
  if s.reg.initState ≠ .uninit then some (.state, s.reg.initState.code.setWidth 32) else none

/-- The data commands need READY (R455). -/
def checkReady (s : State) : Option CheckFailure :=
  if s.reg.initState ≠ .ready then some (.notReady, s.reg.cmd) else none

/-- WRITE_ENABLE and READ_STATUS need a state other than UNINIT (R455). -/
def checkBusUp (s : State) : Option CheckFailure :=
  if s.reg.initState = .uninit then some (.notReady, s.reg.cmd) else none

/-- The operand checks of READ and WRITE, in their order, in exact arithmetic (R456). -/
def checkTransfer (s : State) : Option CheckFailure :=
  if s.reg.addr.toNat < s.cfg.lowBound ∨ s.cfg.highBound < s.reg.addr.toNat then some (.range, s.reg.addr)
  else if s.reg.addr.toNat % 4 ≠ 0 then some (.param, s.reg.addr)
  else if 0 < s.reg.wcount.toNat ∧ s.cfg.highBound < s.reg.addr.toNat + byteLength s - 1 then some (.range, s.reg.addr)
  else if s.reg.ptr = 0 then some (.param, s.reg.ptr)
  else if s.reg.ptr.toNat % 4 ≠ 0 then some (.param, s.reg.ptr)
  else none

/-- The operand checks of ERASE (R456). -/
def checkErase (s : State) : Option CheckFailure :=
  if s.cfg.blockCount ≤ s.reg.block.toNat then some (.range, s.reg.block)
  else if s.cfg.blockCount < s.reg.block.toNat + s.reg.count.toNat then some (.range, s.reg.block)
  else none

/-- The operand check of ERASE_VERIFY (R456). -/
def checkBlock (s : State) : Option CheckFailure :=
  if s.cfg.blockCount ≤ s.reg.block.toNat then some (.range, s.reg.block) else none

/-- A check, then the rest of the step if it passed (R455, R456). -/
def failIf (e : Option CheckFailure) (k : State → State) (s : State) : State :=
  match e with
  | some (code, info) => raise code info s
  | none => k s

/-! ## The command to run -/

/-- The word the CSM's step is decoded from: CMD itself in CHECK (R455), the latched opcode in every later phase (R60;
log 23). -/
def fetchWord (s : State) : Word := if s.reg.phase = .check then s.reg.cmd else s.st.op.setWidth 32

/-- Whether the CSM has a step in the current phase: the third column of R44. -/
def csmEnabled (s : State) : Bool :=
  match s.reg.phase with
  | .idle | .halted => false
  | .welPoll | .busyPoll => s.st.verdict ≠ .none
  | .waitTx => s.st.tc
  | .waitRx => s.st.rc
  | .check | .busInit | .welIssue | .frame | .compare | .advance => true

end Sys2Proof.Machine
end

