-- ==== Sys2Proof/Machine/Device.lean ====
section
/-! DEFINITION. The reference flash device (41_flash_commands.md): its response to each of the nine instructions, and
its completion step. The bytes it drives in a data-in phase are left in `out.busRx`. -/

namespace Sys2Proof.Machine

/-! ## Responses -/

/-- WREN: sets the latch unless an operation runs (R252). -/
def respWren (s : State) : State := if s.dev.op = .none then { s with dev.wel := true } else s

/-- RDSR: drives the status byte; changes nothing of the device, busy or not (R253). -/
def respRdsr (s : State) : State :=
  let r := takeByte s
  { r.2 with out.busRx := [srByte s.cfg s.dev r.1] }

/-- RDVCR: drives the VCR, or any value while an operation runs (R254, R251). -/
def respRdvcr (s : State) : State :=
  if s.dev.op = .none then { s with out.busRx := [s.dev.vcr] }
  else
    let r := takeByte s
    { r.2 with out.busRx := [r.1] }

/-- `dev.SR.WEL <- draw {0, 1}` after a WRVCR, fixed where `WRVCR_CLEARS_WEL` is (R255; log 20). -/
def settleWel (s : State) : State :=
  match s.cfg.wrvcrClearsWel with
  | some clears => { s with dev.wel := !clears }
  | none =>
    let r := takeChoice s
    { r.2 with dev.wel := r.1 % 2 = 1 }

/-- WRVCR: writes the VCR if idle and latched, else ignored (R255, R251). -/
def respWrvcr (v : Byte) (s : State) : State :=
  if s.dev.op = .none ∧ s.dev.wel = true then settleWel { s with dev.vcr := v } else s

/-- A WRVCR that failed before its data byte: the VCR keeps its value (R204; log 17). -/
def respWrvcrNoData (s : State) : State :=
  if s.dev.op = .none ∧ s.dev.wel = true then settleWel s else s

/-- `n` array bytes from device offset `o`, wrapping at CAPACITY (R256). -/
def flashBytes (s : State) (o n : Nat) : List Byte :=
  (List.range n).map fun i => s.flashByte ((o + i) % s.cfg.capacity)

/-- QIOFR: the array's bytes if idle and the dummy counts agree, else any bytes (R256). -/
def respQiofr (addr : Off24) (dummy : BitVec 5) (n : Nat) (s : State) : State :=
  if s.dev.op = .none ∧ vcrDummy s.cfg s.dev.vcr = dummy.toNat then
    { s with out.busRx := flashBytes s addr.toNat n }
  else
    let r := takeBytes n s
    { r.2 with out.busRx := r.1 }

/-- The page latch: data byte `i` at `(o + i) mod PAGE_SIZE`, later bytes over earlier ones (R257). -/
def fillLatch (page : Nat) : List Byte → Nat → List Byte → List Byte
  | latch, _, [] => latch
  | latch, o, d :: ds => fillLatch page (latch.set (o % page) d) (o + 1) ds

/-- EQPP: starts a program of the page if idle and latched, else ignored (R257, R251). -/
def respEqpp (addr : Off24) (data : List Byte) (s : State) : State :=
  if s.dev.op = .none ∧ s.dev.wel = true then
    { s with
      dev.op := .program (addr.toNat - addr.toNat % s.cfg.pageSize)
        (fillLatch s.cfg.pageSize (List.replicate s.cfg.pageSize 0xFF) addr.toNat data)
      dev.age := 0 }
  else s

/-- Starts an erase if idle and latched, else ignored (R258 to R260, R251). -/
def respErase (kind : EraseKind) (base size : Nat) (s : State) : State :=
  if s.dev.op = .none ∧ s.dev.wel = true then { s with dev.op := .erase kind base size, dev.age := 0 } else s

/-- SSE: the 4 KB subsector of the offset (R258). -/
def respSse (addr : Off24) (s : State) : State := respErase .sse (addr.toNat - addr.toNat % 4096) 4096 s

/-- SE: the 64 KB sector of the offset (R259). -/
def respSe (addr : Off24) (s : State) : State := respErase .se (addr.toNat - addr.toNat % 65536) 65536 s

/-- BE: the whole array (R260). -/
def respBe (s : State) : State := respErase .be 0 s.cfg.capacity s

/-! ## Completion -/

/-- The device's completion step: the operation takes effect, the latch clears (R261, R262). -/
def completeOp (s : State) : State :=
  match s.dev.op with
  | .none => s
  | .program base latch =>
    { s with
      dev.array := programBytes s.cfg.capacity s.dev.array base latch
      dev.wel := false
      dev.op := .none }
  | .erase _ base size =>
    { s with dev.array := eraseBytes s.dev.array base size, dev.wel := false, dev.op := .none }

/-- `DEV_TMAX_k` of the running operation's kind (R263). -/
def maxLatency (c : Cfg) : DevOp → Option Nat
  | .none => none
  | .program _ _ => some c.devTmaxPp
  | .erase .sse _ _ => some c.devTmaxSse
  | .erase .se _ _ => some c.devTmaxSe
  | .erase .be _ _ => some c.devTmaxBe

/-- The guard of the tick step: under `DEV_LATENCY_BOUNDED` no tick passes an operation's maximum latency (R263); the
tick that reaches it is taken (beside R223: log 32). -/
def tickEnabled (s : State) : Bool :=
  match maxLatency s.cfg s.dev.op with
  | none => true
  | some m => !(s.cfg.devLatencyBounded && decide (m ≤ s.dev.age.toNat))

/-! ## The device instructions -/

/-- WREN (R252). -/
def execWren (s : State) : Result := .next (respWren s)

/-- RDSR (R253). -/
def execRdsr (s : State) : Result := .next (respRdsr s)

/-- RDVCR (R254). -/
def execRdvcr (s : State) : Result := .next (respRdvcr s)

/-- WRVCR (R255). -/
def execWrvcr (v : Byte) (s : State) : Result := .next (respWrvcr v s)

/-- QIOFR: its data phase (R203, R256). -/
def execQiofr (addr : Off24) (dummy : BitVec 5) (n : Word) (s : State) : Result :=
  .next (respQiofr addr dummy n.toNat s)

/-- EQPP: the program starts when its data has arrived (R203, R257). -/
def execEqpp (addr : Off24) (data : List Byte) (s : State) : Result := .next (respEqpp addr data s)

/-- SSE (R258). -/
def execSse (addr : Off24) (s : State) : Result := .next (respSse addr s)

/-- SE (R259). -/
def execSe (addr : Off24) (s : State) : Result := .next (respSe addr s)

/-- BE (R260). -/
def execBe (s : State) : Result := .next (respBe s)

end Sys2Proof.Machine
end

