-- ==== Sys2Proof/Machine/Transport.lean ====
section
/-! DEFINITION. The quad-SPI transport (40_transport.md): frame issue, DMA, bus set-up, the waits for the completion
flags, the polling sequencer and the tick. -/

namespace Sys2Proof.Machine

/-! ## Frames -/

/-- The frame goes out on the bus (R164), with the bytes the device drove in it. -/
def logFrame (f : Frame) (r : XResult) (rx : List Byte) (s : State) : State :=
  { s with out.busLog := { cmd := s.out.commands, frame := f, result := r, rx := rx } :: s.out.busLog }

/-- The bytes the device drove in an inline data-in frame (R201); a DMA data phase is still to come. -/
def inlineRx (f : Frame) (s : State) : List Byte :=
  if f.dir = some .inp ∧ f.path = some .inline then s.out.busRx else []

/-- The data bytes that the open frame, the newest one, received (R208). -/
def fillRx (bytes : List Byte) : List BusItem → List BusItem
  | [] => []
  | it :: rest => { it with rx := bytes } :: rest

/-- The data bytes that the open frame, the newest one, sent (R208). -/
def fillTx (bytes : List Byte) : List BusItem → List BusItem
  | [] => []
  | it :: rest => { it with frame.payload := bytes } :: rest

/-- The device effect of a failed frame: none, or that of the frame with its first `k` data bytes (R204). -/
def failedFrame (part : Nat → State → State) (s : State) : State :=
  let c := takeChoice s
  match c.1 with
  | 0 => c.2
  | k + 1 => part k c.2

/-- `issue(desc)`: `act` is what the device does when the frame is delivered, `part` what it may do when the issue fails
(R201 to R204). -/
def issue (f : Frame) (act : State → State) (part : Nat → State → State) (s : State) : XResult × State :=
  let r := takeResult s
  match r.1 with
  | .ok =>
    let s1 := act r.2
    (.ok, logFrame f .ok (inlineRx f s1) s1)
  | .xfail => (.xfail, failedFrame part (logFrame f .xfail [] r.2))

/-- A failed step raises TRANSPORT, a successful one goes on (R201, R205, R214: "XFAIL, which the calling rule turns into
TRANSPORT"). -/
def orTransport (info : Word) (r : XResult × State) (k : State → State) : State :=
  match r.1 with
  | .ok => k r.2
  | .xfail => raise .transport info r.2

/-- The frame changes nothing of the device, whole or cut. -/
def noEffect (_ : Nat) (s : State) : State := s

/-- The byte an inline data-in frame returned (R201). -/
def rxByte (s : State) : Byte := s.out.busRx.headD 0

/-- `issue(WREN)` (R300). -/
def issueWren (s : State) : XResult × State :=
  issue (bareFrame s.cfg.opcWren) respWren (fun _ => respWren) s

/-- `issue(RDSR)` (R425). -/
def issueRdsr (s : State) : XResult × State := issue (regInFrame s.cfg.opcRdsr) respRdsr noEffect s

/-- `issue(RDVCR)` (R305). -/
def issueRdvcr (s : State) : XResult × State := issue (regInFrame s.cfg.opcRdvcr) respRdvcr noEffect s

/-- The device effect of a WRVCR cut after `k` data bytes (R204; log 17). -/
def partWrvcr (v : Byte) : Nat → State → State
  | 0, s => respWrvcrNoData s
  | _ + 1, s => respWrvcr v s

/-- `issue(WRVCR(v))` (R305). -/
def issueWrvcr (v : Byte) (s : State) : XResult × State :=
  issue (regOutFrame s.cfg.opcWrvcr v) (respWrvcr v) (partWrvcr v) s

/-- `issue(SSE(o))` (R370). -/
def issueSse (a : Off24) (s : State) : XResult × State :=
  issue (eraseFrame s.cfg.opcSse a) (respSse a) (fun _ => respSse a) s

/-- `issue(SE(o))` (R370). -/
def issueSe (a : Off24) (s : State) : XResult × State :=
  issue (eraseFrame s.cfg.opcSe a) (respSe a) (fun _ => respSe a) s

/-- `issue(BE)` (R375). -/
def issueBe (s : State) : XResult × State := issue (bareFrame s.cfg.opcBe) respBe (fun _ => respBe) s

/-- The dummy count of every QIOFR frame (R157, R307). -/
def readDummy (c : Cfg) : BitVec 5 := BitVec.ofNat 5 c.dummyCycles

/-- `issue(QIOFR(...))`: the data phase is left to the DMA (R203, R353). -/
def issueQiofr (a : Off24) (n : Nat) (s : State) : XResult × State :=
  issue (quadInFrame s.cfg.opcQiofr a (readDummy s.cfg) (w32 n)) id noEffect s

/-! ## Bytes leaving host memory -/

/-- The byte the DMA moves from address `a`: the byte there, or, where the host changed it while the WRITE runs, any of the
values it had (R120; log 19). -/
def txByte (a : Nat) (s : State) : Byte × State :=
  match s.env.stale.filter (fun c => c.1 = a) with
  | [] => (s.hostByte a, s)
  | c :: cs =>
    let r := takeChoice s
    (((s.hostByte a) :: (c :: cs).map (·.2)).getD (r.1 % (cs.length + 2)) (s.hostByte a), r.2)

/-- `n` bytes from address `a` (R208: `MemRead(a, n)`). -/
def txBytes : Nat → Nat → State → List Byte × State
  | _, 0, s => ([], s)
  | a, n + 1, s =>
    let r := txByte a s
    let q := txBytes (a + 1) n r.2
    (r.1 :: q.1, q.2)

/-- The device effect of an EQPP of `n` host bytes cut after `k` of them (R204; log 18). -/
def partEqpp (a : Off24) (src : Word) (n k : Nat) (s : State) : State :=
  let b := txBytes src.toNat n s
  respEqpp a (b.1.take k) b.2

/-- `issue(EQPP(...))`: the data phase is left to the DMA (R203, R360). -/
def issueEqpp (a : Off24) (src : Word) (n : Nat) (s : State) : XResult × State :=
  issue (quadOutFrame s.cfg.opcEqpp a (w32 n) []) id (partEqpp a src n) s

/-! ## DMA -/

/-- `dma_in`, `dma_out`: start a transfer (R205); `part` is the frame's effect if the start fails (R204). -/
def startDma (d : Dma) (part : Nat → State → State) (s : State) : XResult × State :=
  let r := takeResult s
  match r.1 with
  | .ok => (.ok, { r.2 with st.dma := d })
  | .xfail => (.xfail, failedFrame part r.2)

/-- Whether the platform lets the transfer complete (R208). -/
def dstAdmitted (c : Cfg) (n : Nat) : DmaDst → Bool
  | .host a => admits c a.toNat n
  | .scratch => true

/-- Received bytes go to host memory or to the front of the scratch buffer (R207, R208). -/
def deposit (dst : DmaDst) (bytes : List Byte) (s : State) : State :=
  match dst with
  | .host a => { s with mem := Memory.writeList hostDefault s.mem a.toNat bytes }
  | .scratch => { s with st.scratch := bytes ++ s.st.scratch.drop bytes.length }

/-- The DMA completion step (R208); a transfer the platform does not admit has none (R101, R211). Host bytes at the
register window's addresses are plain host memory (log 33). -/
def dmaStep (s : State) : State :=
  match s.st.dma with
  | .idle => s
  | .rx dst n addr dummy =>
    if dstAdmitted s.cfg n dst then
      let s1 := respQiofr addr dummy n s
      { deposit dst s1.out.busRx s1 with
        st.rc := true
        st.dma := .idle
        out.busLog := fillRx s1.out.busRx s1.out.busLog }
    else s
  | .tx src n addr =>
    if admits s.cfg src.toNat n then
      let b := txBytes src.toNat n s
      let s1 := respEqpp addr b.1 b.2
      { s1 with st.tc := true, st.dma := .idle, out.busLog := fillTx b.1 s1.out.busLog }
    else s

/-- WAIT_TX consumes the transmit-complete flag (R212). -/
def waitTx (k : State → State) (s : State) : State := if s.st.tc then k { s with st.tc := false } else s

/-- WAIT_RX consumes the receive-complete flag and restores the chip-select time (R212, R215). -/
def waitRx (k : State → State) (s : State) : State :=
  if s.st.rc then k { s with st.rc := false, st.csht := s.cfg.cshtDefault } else s

/-- The FRAME step of a read: shorter chip-select time, QIOFR at the cursor, DMA in (R215, R353, R379). -/
def startRead (dst : DmaDst) (n : Nat) (s : State) : State :=
  let s0 := if s.cfg.cshtToggle then { s with st.csht := s.cfg.cshtRead } else s
  let a := off24 s.st.cur.toNat
  orTransport (cursorInfo s) (issueQiofr a n s0) fun s1 =>
    orTransport (cursorInfo s) (startDma (.rx dst n a (readDummy s.cfg)) noEffect s1) (toPhase .waitRx)

/-! ## Bus set-up -/

/-- The values INIT programs into the bus controller (R214). -/
def busSetup (c : Cfg) : BusSetup :=
  { prescaler := c.busPrescaler, fifoThreshold := c.fifoThreshold, csht := c.cshtDefault, clockMode := c.clockMode,
    addrBytes := c.addrBytes }

/-- `bus_init()` (R214). -/
def busInit (s : State) : XResult × State :=
  let r := takeResult s
  match r.1 with
  | .ok => (.ok, { r.2 with st.bus := .on (busSetup s.cfg), st.csht := s.cfg.cshtDefault })
  | .xfail => (.xfail, r.2)

/-- `bus_deinit()` (R214). -/
def busDeinit (s : State) : State := { s with st.bus := .off, st.csht := s.cfg.cshtDefault }

/-! ## write_enable and wait_operation_complete -/

/-- The WEL_ISSUE step (R300). -/
def welIssue (info : Word) (s : State) : State :=
  orTransport info (issueWren s) fun s1 =>
    toPhase .welPoll (startPoll s1.cfg.srWelMask s1.cfg.srWelMask s1.cfg.tWel s1)

/-- The WEL_POLL and BUSY_POLL steps: consume the verdict (R301, R304). -/
def takeVerdict (info : Word) (k : State → State) (s : State) : State :=
  match s.st.verdict with
  | .none => s
  | .timeout => raise .timeout info { s with st.verdict := .none }
  | .matched => k { s with st.verdict := .none }

/-! ## Polling sequencer and tick -/

/-- The sample step (R220): one RDSR frame, which cannot fail, and the voter (R221). -/
def sampleStep (s : State) : State :=
  if s.st.pollActive then
    let f := regInFrame s.cfg.opcRdsr
    let s0 := respRdsr s
    let s1 := logFrame f .ok (inlineRx f s0) s0
    let s2 := { s1 with reg.devSr := rxByte s1 }
    match voter s.st.pollMask s.st.pollMatch s.st.pollBudget s.st.pollElapsed (rxByte s1) with
    | .none => s2
    | .matched => { s2 with st.verdict := .matched, st.pollActive := false }
    | .timeout => { s2 with st.verdict := .timeout, st.pollActive := false }
  else s

/-- The tick step (R222), under its guard (R263); `dev.age` is 32 bits (R73; log 30). -/
def tickStep (s : State) : State :=
  if tickEnabled s then
    { s with
      st.pollElapsed := if s.st.pollActive then satSucc s.st.pollElapsed else s.st.pollElapsed
      dev.age := if s.dev.op ≠ .none then s.dev.age + 1 else s.dev.age }
  else s

end Sys2Proof.Machine
end

