-- ==== Sys2Proof/Machine/BlockIo.lean ====
section
/-! DEFINITION. The data commands (43_block_io.md): READ, WRITE with the page-boundary write-split engine, ERASE,
BULK_ERASE, ERASE_VERIFY with the read-verify datapath: each meaning is the command's CSM step in each phase it has. -/

namespace Sys2Proof.Machine

/-! ## READ -/

/-- The CHECK step of READ, its checks passed (R352). -/
def readCheck (s : State) : State :=
  let s1 :=
    { s with
      st.cur := w32 (toDeviceOffset s.cfg s.reg.addr.toNat)
      st.ptr := s.reg.ptr
      st.len := w32 (byteLength s) }
  if byteLength s = 0 then finish s1 else toPhase .frame s1

/-- READ (R351 to R355). -/
def execRead (s : State) : Result :=
  match s.reg.phase with
  | .check => .next (failIf (checkReady s <|> checkTransfer s) readCheck s)
  | .frame => .next (startRead (.host s.st.ptr) s.st.len.toNat s)
  | .waitRx => .next (waitRx finish s)
  | _ => .fault .noStepInPhase

/-! ## WRITE -/

/-- The CHECK step of WRITE, its checks passed: the cursor, the end and the first chunk (R358). -/
def writeCheck (s : State) : State :=
  let cur := toDeviceOffset s.cfg s.reg.addr.toNat
  let stop := cur + byteLength s
  let s1 := { s with st.cur := w32 cur, st.stop := w32 stop, st.ptr := s.reg.ptr }
  if cur = stop then finish s1
  else toPhase .welIssue { s1 with st.chunk := w32 (firstChunk s.cfg.pageSize cur stop) }

/-- The FRAME step of WRITE: EQPP of the chunk at the cursor, DMA out (R360). -/
def writeFrame (s : State) : State :=
  let a := off24 s.st.cur.toNat
  let n := s.st.chunk.toNat
  orTransport (cursorInfo s) (issueEqpp a s.st.ptr n s) fun s1 =>
    orTransport (cursorInfo s) (startDma (.tx s.st.ptr n a) (partEqpp a s.st.ptr n) s1) (toPhase .waitTx)

/-- The ADVANCE step of WRITE: the cursor and the pointer move on, the next chunk is a page or what is left (R364). -/
def writeAdvance (s : State) : State :=
  let cur := s.st.cur + s.st.chunk
  let s1 := { s with st.cur := cur, st.ptr := s.st.ptr + s.st.chunk }
  if cur = s.st.stop then finish s1
  else toPhase .welIssue { s1 with st.chunk := w32 (nextChunk s.cfg.pageSize cur.toNat s.st.stop.toNat) }

/-- WRITE (R357 to R366). -/
def execWrite (s : State) : Result :=
  match s.reg.phase with
  | .check => .next (failIf (checkReady s <|> checkTransfer s) writeCheck s)
  | .welIssue => .next (welIssue (cursorInfo s) s)
  | .welPoll => .next (takeVerdict (cursorInfo s) (toPhase .frame) s)
  | .frame => .next (writeFrame s)
  | .waitTx => .next (waitTx (busyWait s.cfg.tPp) s)
  | .busyPoll => .next (takeVerdict (cursorInfo s) (toPhase .advance) s)
  | .advance => .next (writeAdvance s)
  | _ => .fault .noStepInPhase

/-! ## ERASE -/

/-- The CHECK step of ERASE, its checks passed (R369). -/
def eraseCheck (s : State) : State :=
  let s1 := { s with st.bi := s.reg.block, st.bn := w32 (s.reg.block.toNat + s.reg.count.toNat) }
  if s.reg.count = 0 then finish s1 else toPhase .welIssue s1

/-- The erase instruction and its budget, by the block size (R370, R371). -/
def eraseFrameStep (s : State) : State :=
  let a := off24 (s.st.bi.toNat * s.cfg.blockSize)
  if s.cfg.blockSize = 4096 then orTransport s.st.bi (issueSse a s) fun s1 => busyWait s1.cfg.tSse s1
  else orTransport s.st.bi (issueSe a s) fun s1 => busyWait s1.cfg.tSe s1

/-- The ADVANCE step of ERASE (R372). -/
def eraseAdvance (s : State) : State :=
  let bi := s.st.bi + 1
  let s1 := { s with st.bi := bi }
  if bi = s.st.bn then finish s1 else toPhase .welIssue s1

/-- ERASE (R368 to R373). -/
def execErase (s : State) : Result :=
  match s.reg.phase with
  | .check => .next (failIf (checkReady s <|> checkErase s) eraseCheck s)
  | .welIssue => .next (welIssue s.st.bi s)
  | .welPoll => .next (takeVerdict s.st.bi (toPhase .frame) s)
  | .frame => .next (eraseFrameStep s)
  | .busyPoll => .next (takeVerdict s.st.bi (toPhase .advance) s)
  | .advance => .next (eraseAdvance s)
  | _ => .fault .noStepInPhase

/-! ## BULK_ERASE -/

/-- The FRAME step of BULK_ERASE (R375). -/
def bulkFrame (s : State) : State := orTransport 0 (issueBe s) fun s1 => busyWait s1.cfg.tBe s1

/-- BULK_ERASE (R374 to R376). -/
def execBulkErase (s : State) : Result :=
  match s.reg.phase with
  | .check => .next (failIf (checkReady s) (toPhase .welIssue) s)
  | .welIssue => .next (welIssue 0 s)
  | .welPoll => .next (takeVerdict 0 (toPhase .frame) s)
  | .frame => .next (bulkFrame s)
  | .busyPoll => .next (takeVerdict 0 finish s)
  | _ => .fault .noStepInPhase

/-! ## ERASE_VERIFY -/

/-- The CHECK step of ERASE_VERIFY, its checks passed (R378). -/
def verifyCheck (s : State) : State :=
  let cur := s.reg.block.toNat * s.cfg.blockSize
  { s with st.cur := w32 cur, st.stop := w32 (cur + s.cfg.blockSize), reg.phase := .frame }

/-- The index of the first byte that is not erased, if there is one (R380). -/
def firstMismatch (erased : Byte) (bytes : List Byte) : Option Nat := bytes.findIdx? (· ≠ erased)

/-- The COMPARE step of ERASE_VERIFY: byte by byte against the erased value (R380). -/
def verifyCompare (s : State) : State :=
  match firstMismatch s.cfg.erasedByte s.st.scratch with
  | some i => raise .verifyMismatch (w32 (s.cfg.bias + s.st.cur.toNat + i)) s
  | none => toPhase .advance s

/-- The ADVANCE step of ERASE_VERIFY (R381). -/
def verifyAdvance (s : State) : State :=
  let cur := s.st.cur + w32 s.cfg.sectorSize
  let s1 := { s with st.cur := cur }
  if cur = s.st.stop then finish s1 else toPhase .frame s1

/-- ERASE_VERIFY (R377 to R382). -/
def execEraseVerify (s : State) : Result :=
  match s.reg.phase with
  | .check => .next (failIf (checkReady s <|> checkBlock s) verifyCheck s)
  | .frame => .next (startRead .scratch s.cfg.sectorSize s)
  | .waitRx => .next (waitRx (toPhase .compare) s)
  | .compare => .next (verifyCompare s)
  | .advance => .next (verifyAdvance s)
  | _ => .fault .noStepInPhase

end Sys2Proof.Machine
end

