-- ==== Sys2Proof/Machine/Control.lean ====
section
/-! DEFINITION. The control commands (44_control_commands.md) and `configure_device` (42_protocol_primitives.md): each
meaning is the command's CSM step in each phase the command has. -/

namespace Sys2Proof.Machine

/-! ## NOP, DEINIT, SYSTEM_ERROR -/

/-- NOP (R420). -/
def execNop (s : State) : Result :=
  match s.reg.phase with
  | .check => .next (finish s)
  | _ => .fault .noStepInPhase

/-- The CHECK step of DEINIT (R422). -/
def deinitCheck (s : State) : State :=
  let s1 := if s.st.bus = .off then s else busDeinit s
  finish { s1 with reg.initState := .uninit }

/-- DEINIT (R422). -/
def execDeinit (s : State) : Result :=
  match s.reg.phase with
  | .check => .next (deinitCheck s)
  | _ => .fault .noStepInPhase

/-- SYSTEM_ERROR (R423). -/
def execSystemError (s : State) : Result :=
  match s.reg.phase with
  | .check => .next (finish (hook s.reg.ecode s))
  | _ => .fault .noStepInPhase

/-! ## INIT -/

/-- The BUS_INIT step (R421). -/
def initBus (s : State) : State :=
  orTransport 0 (busInit s) fun s1 =>
    { s1 with reg.initState := .busReady, st.sub := .cfgRd0, reg.phase := .frame }

/-- The first frame of `configure_device`: read the VCR and form the value to program (R305). -/
def configRead (s : State) : State :=
  orTransport 0 (issueRdvcr s) fun s1 =>
    { s1 with
      reg.devVcr := rxByte s1
      st.vcrProg := vcrProgram s1.cfg (rxByte s1)
      st.sub := .cfgWr
      reg.phase := .welIssue }

/-- The second frame: write the VCR (R305). -/
def configWrite (s : State) : State :=
  orTransport 0 (issueWrvcr s.st.vcrProg s) fun s1 => { s1 with st.sub := .cfgRd1, reg.phase := .frame }

/-- The third frame: read the VCR back (R305). -/
def configReadBack (s : State) : State :=
  orTransport 0 (issueRdvcr s) fun s1 => { s1 with reg.devVcr := rxByte s1, reg.phase := .compare }

/-- The COMPARE step of INIT: the dummy field read back against the one programmed (R306). -/
def configCompare (s : State) : State :=
  if s.reg.devVcr &&& s.cfg.vcrDcMask ≠ s.st.vcrProg &&& s.cfg.vcrDcMask then
    raise .configMismatch (s.reg.devVcr.setWidth 32) s
  else finish { s with reg.initState := .ready }

/-- INIT (R421, R305, R306). -/
def execInit (s : State) : Result :=
  match s.reg.phase with
  | .check => .next (failIf (checkUninit s) (toPhase .busInit) s)
  | .busInit => .next (initBus s)
  | .welIssue => .next (welIssue 0 s)
  | .welPoll => .next (takeVerdict 0 (toPhase .frame) s)
  | .frame =>
    match s.st.sub with
    | .cfgRd0 => .next (configRead s)
    | .cfgWr => .next (configWrite s)
    | .cfgRd1 => .next (configReadBack s)
    | .none => .fault .noStepInPhase
  | .compare => .next (configCompare s)
  | _ => .fault .noStepInPhase

/-! ## WRITE_ENABLE, READ_STATUS -/

/-- WRITE_ENABLE (R424, R300, R301). -/
def execWriteEnable (s : State) : Result :=
  match s.reg.phase with
  | .check => .next (failIf (checkBusUp s) (toPhase .welIssue) s)
  | .welIssue => .next (welIssue 0 s)
  | .welPoll => .next (takeVerdict 0 finish s)
  | _ => .fault .noStepInPhase

/-- The FRAME step of READ_STATUS (R425). -/
def statusFrame (s : State) : State :=
  orTransport 0 (issueRdsr s) fun s1 => finish { s1 with reg.devSr := rxByte s1 }

/-- READ_STATUS (R425). -/
def execReadStatus (s : State) : Result :=
  match s.reg.phase with
  | .check => .next (failIf (checkBusUp s) (toPhase .frame) s)
  | .frame => .next (statusFrame s)
  | _ => .fault .noStepInPhase

end Sys2Proof.Machine
end

