-- ==== Sys2Proof/Machine/Dispatch.lean ====
section
/-! DEFINITION. The dispatch: one arm per instruction. -/

namespace Sys2Proof.Machine

def exec (i : Instr) (s : State) : Host.Outcome State Fault Refusal :=
  match i with
  | .nop => Sys2Proof.Machine.execNop s
  | .init => Sys2Proof.Machine.execInit s
  | .deinit => Sys2Proof.Machine.execDeinit s
  | .read => Sys2Proof.Machine.execRead s
  | .write => Sys2Proof.Machine.execWrite s
  | .erase => Sys2Proof.Machine.execErase s
  | .eraseVerify => Sys2Proof.Machine.execEraseVerify s
  | .systemError => Sys2Proof.Machine.execSystemError s
  | .bulkErase => Sys2Proof.Machine.execBulkErase s
  | .writeEnable => Sys2Proof.Machine.execWriteEnable s
  | .readStatus => Sys2Proof.Machine.execReadStatus s
  | .wren => Sys2Proof.Machine.execWren s
  | .rdsr => Sys2Proof.Machine.execRdsr s
  | .rdvcr => Sys2Proof.Machine.execRdvcr s
  | .wrvcr v => Sys2Proof.Machine.execWrvcr v s
  | .qiofr addr dummy n => Sys2Proof.Machine.execQiofr addr dummy n s
  | .eqpp addr data => Sys2Proof.Machine.execEqpp addr data s
  | .sse addr => Sys2Proof.Machine.execSse addr s
  | .se addr => Sys2Proof.Machine.execSe addr s
  | .be => Sys2Proof.Machine.execBe s

end Sys2Proof.Machine
end

