-- ==== Sys2Proof/Machine/Agents.lean ====
section
/-! DEFINITION. What each agent does in its step (R200, R467): the CSM, the host port, another agent on the bus, and the
reset input. -/

namespace Sys2Proof.Machine

/-! ## The CSM -/

/-- The CSM's step: nothing while the phase's condition does not hold (R13, R44); else the running command's step, an
illegal word failing at CHECK (R426, R455). -/
def csmStep (s : State) : Result :=
  if csmEnabled s then
    match decodeCmd (fetchWord s) with
    | .ok i => exec i s
    | .error _ => if s.reg.phase = .check then .next (raise .illegalCmd s.reg.cmd s) else .fault .noStepInPhase
  else .next s

/-! ## The host -/

/-- Whether address `a` lies in the buffer of a running READ (R120): by the operand registers until CHECK has latched them,
by the latched values after. -/
def inReadBuffer (s : State) (a : Nat) : Bool :=
  let base := if s.reg.phase = .check then s.reg.ptr.toNat else s.st.ptr.toNat
  let n := if s.reg.phase = .check then byteLength s else s.st.len.toNat
  s.reg.busy && s.st.op = 3 && base ≤ a && a < base + n

/-- The host reads a byte of its own memory: any value where a READ is filling it (R120). The register window's addresses
are plain host memory here (log 33). -/
def hostLoad (a : Word) (s : State) : State :=
  if inReadBuffer s a.toNat then
    let r := takeByte s
    { r.2 with out.hostRd := r.1.setWidth 32 }
  else { s with out.hostRd := (s.hostByte a.toNat).setWidth 32 }

/-- The host writes a byte of its own memory: while a WRITE runs, the value it had is kept beside (R120; log 19). The
register window's addresses are plain host memory here (log 33). -/
def hostStore (a : Word) (b : Byte) (s : State) : State :=
  { s with
    mem := Memory.write hostDefault s.mem a.toNat b
    env.stale :=
      if s.reg.busy = true ∧ s.st.op = 4 then (a.toNat, s.hostByte a.toNat) :: s.env.stale else s.env.stale }

/-- What is wrong with a register access, if anything (R32). -/
def badAccess (off width : Nat) : Option Refusal :=
  if width ≠ 4 then some .badAccessWidth
  else if off % 4 ≠ 0 then some .badAccessAlignment
  else if 256 ≤ off then some .outsideWindow
  else none

/-- A host read returns the word and changes nothing else (R32). -/
def hostRead (off : Nat) (s : State) : State := { s with out.hostRd := readWindow off s }

/-- The host's access. `wait` is a read of STATUS that the host repeats until bit 1 of the value is 1 (R163). -/
def hostAccess (op : HostOp) (s : State) : Result :=
  match op with
  | .write off width v =>
    match badAccess off width with
    | some r => .refused r
    | none => .next (writeWindow off v s)
  | .read off width =>
    match badAccess off width with
    | some r => .refused r
    | none => .next (hostRead off s)
  | .wait =>
    let s1 := hostRead RegName.status.offset s
    .next (if s.reg.done then s1 else { s1 with env.prog := .wait :: s1.env.prog })
  | .store a b => .next (hostStore a b s)
  | .load a => .next (hostLoad a s)

/-- The host's step: its next access (log 5). -/
def hostStep (s : State) : Result :=
  match s.env.prog with
  | [] => .next s
  | op :: rest => hostAccess op { s with env.prog := rest }

/-! ## Another agent on the bus -/

/-- A frame of another agent: the device responds to it (R307, R518), and ignores one that is none of its nine
instructions, as it ignores any that it cannot execute (R251, D34; log 6). -/
def busStep (s : State) : Result :=
  match s.env.foreign with
  | [] => .next s
  | f :: fs =>
    match decodeFrame s.cfg f with
    | .ok i => exec i { s with env.foreign := fs }
    | .error _ => .next { s with env.foreign := fs }

/-! ## Reset -/

/-- The length of a first part of `k` bytes of a transfer, if the platform lets it move; else nothing moves (R101, R501). -/
def cutLength (c : Cfg) (a n k : Nat) : Nat := if admits c a (min k n) then min k n else 0

/-- A transfer cut off by reset: any first part of its bytes that the platform admits has moved, the whole range admitted
or not (R501; log 16). -/
def cutTransfer (s : State) : State :=
  match s.st.dma with
  | .idle => s
  | .rx (.host a) n addr dummy =>
    let s1 := respQiofr addr dummy n s
    let c := takeChoice s1
    deposit (.host a) (s1.out.busRx.take (cutLength s.cfg a.toNat n c.1)) c.2
  | .rx .scratch _ _ _ => s
  | .tx src n addr => failedFrame (fun k => partEqpp addr src n (cutLength s.cfg src.toNat n k)) s

/-- Block reset (R500, R501): the block's registers and hidden state, the scratch buffer's bytes drawn (R81). The device,
host memory and the parameters stay. -/
def blockReset (s : State) : State :=
  let r := takeBytes s.cfg.sectorSize (cutTransfer s)
  { r.2 with reg := Regs.reset, st := Hidden.reset s.cfg r.1, env.inReset := true, env.stale := [] }

/-! ## One agent's step -/

/-- The step of one agent. While reset is asserted no step of the block is taken (R500); the device and the tick go on. -/
def act (a : Agent) (s : State) : Result :=
  match a with
  | .csm => if s.env.inReset then .next s else csmStep s
  | .dma => if s.env.inReset then .next s else .next (dmaStep s)
  | .sample => if s.env.inReset then .next s else .next (sampleStep s)
  | .host => if s.env.inReset then .next s else hostStep s
  | .tick => .next (tickStep s)
  | .device => .next (completeOp s)
  | .bus => busStep s
  | .resetAssert => if s.env.inReset then .next s else .next (blockReset s)
  | .resetRelease => .next { s with env.inReset := false }

/-! ## Placing an instruction -/

/-- A command word placed as an accepted command, the CSM next (R457, R500; log 7). -/
def placeCommand (w : Word) (s : State) : State :=
  let s1 := acceptCmd w s
  { s1 with env.agenda := .csm :: s1.env.agenda, env.inReset := false }

/-- A frame placed on the bus as another agent's, the bus next (log 7). -/
def placeFrame (f : Frame) (s : State) : State :=
  { s with env.foreign := f :: s.env.foreign, env.agenda := .bus :: s.env.agenda }

/-- An encoded item placed where its port takes it. -/
def placeItem (e : Encoded) (s : State) : State :=
  match e with
  | .cmd w => placeCommand w s
  | .frame f => placeFrame f s

end Sys2Proof.Machine
end

