-- ==== Sys2Proof/Machine/Step.lean ====
section
/-! DEFINITION. The step, and where an instruction is placed so that the next step runs it. -/

namespace Sys2Proof.Machine

/-- One step of one agent (R467): the agenda's next, and what that agent does. -/
def step (s : State) : Host.Outcome State Fault Refusal :=
  let a := takeAgent s
  act a.1 a.2

/-- `s` with a word of the opcode table where the next step takes it (log 7). -/
def State.withFetchWord (s : State) (nbits w : Nat) : State := placeItem (itemOfTableWord s.cfg nbits w) s

end Sys2Proof.Machine
end

