-- ==== Sys2Proof/Machine/HostProgram.lean ====
section
/-! DEFINITION. The text syntax of host programs and its machine encoding (30_encoding.md R161 to R163). -/

namespace Sys2Proof.Machine

/-- A statement of a host program (R161). -/
inductive Stmt where
  | wr (r : RegName) (v : Word)
  | rd (r : RegName)
  | wait
  | clr
  deriving DecidableEq, Repr

/-- The pseudo-instructions (R162). -/
inductive Pseudo where
  | nop
  | init
  | deinit
  | read (a p w : Word)
  | write (a p w : Word)
  | erase (b c : Word)
  | verify (b : Word)
  | syserr (e : Word)
  | bulk
  | wren
  | rdsr
  deriving DecidableEq, Repr

/-- The expansions of R162. -/
def expand : Pseudo → List Stmt
  | .nop => [.wr .cmd 0x0, .wait]
  | .init => [.wr .cmd 0x1, .wait]
  | .deinit => [.wr .cmd 0x2, .wait]
  | .read a p w => [.wr .addr a, .wr .ptr p, .wr .wcount w, .wr .cmd 0x3, .wait]
  | .write a p w => [.wr .addr a, .wr .ptr p, .wr .wcount w, .wr .cmd 0x4, .wait]
  | .erase b c => [.wr .block b, .wr .count c, .wr .cmd 0x5, .wait]
  | .verify b => [.wr .block b, .wr .cmd 0x6, .wait]
  | .syserr e => [.wr .ecode e, .wr .cmd 0x7, .wait]
  | .bulk => [.wr .cmd 0x8, .wait]
  | .wren => [.wr .cmd 0x9, .wait]
  | .rdsr => [.wr .cmd 0xA, .wait, .rd .devSr]

/-- The register access of a statement (R163); `clr` writes 0xE to STATUS (R161). -/
def assemble : Stmt → HostOp
  | .wr r v => .write r.offset 4 v
  | .rd r => .read r.offset 4
  | .wait => .wait
  | .clr => .write RegName.status.offset 4 0x0000000E

/-- The accesses of a pseudo-instruction. -/
def accesses (p : Pseudo) : List HostOp := (expand p).map assemble

end Sys2Proof.Machine
end

