-- ==== Sys2Proof/Safety.lean ====
section
/-! DEFINITION. What counts as a good state and a good run: the invariants of the memories, of the control state, of the
write-split engine and of the frames on the bus (95_test_vectors.md section 4), what a state reaches, and the fair runs of
R222 and R263. -/

namespace Sys2Proof.Machine

/-! ## Memories -/

/-- Host memory and the array are in canonical form and list existing bytes only (R70, R101). -/
structure MemoryInv (s : State) : Prop where
  mem_wf : Memory.wf hostDefault s.mem
  mem_below : Memory.below (2 ^ 32) s.mem
  array_wf : Memory.wf flashDefault s.dev.array
  array_below : Memory.below s.cfg.capacity s.dev.array

/-! ## Control -/

/-- The phases each command's rule gives it, past CHECK (R351, R357, R368, R374, R377, R420 to R425). -/
def commandPhases : Instr → List Phase
  | .init => [.busInit, .frame, .welIssue, .welPoll, .compare]
  | .read => [.frame, .waitRx]
  | .write => [.welIssue, .welPoll, .frame, .waitTx, .busyPoll, .advance]
  | .erase => [.welIssue, .welPoll, .frame, .busyPoll, .advance]
  | .eraseVerify => [.frame, .waitRx, .compare, .advance]
  | .bulkErase => [.welIssue, .welPoll, .frame, .busyPoll]
  | .writeEnable => [.welIssue, .welPoll]
  | .readStatus => [.frame]
  | .nop | .deinit | .systemError | .wren | .rdsr | .rdvcr | .wrvcr _ | .qiofr _ _ _ | .eqpp _ _ | .sse _ | .se _
  | .be => []

/-- The lifecycle state a command past CHECK runs in (R152, R455, R421). -/
def lifecycleOk (i : Instr) (p : Phase) (st : InitState) : Prop :=
  match i with
  | .init => if p = .busInit then st = .uninit else st = .busReady
  | .read | .write | .erase | .eraseVerify | .bulkErase => st = .ready
  | .writeEnable | .readStatus => st ≠ .uninit
  | .nop | .deinit | .systemError | .wren | .rdsr | .rdvcr | .wrvcr _ | .qiofr _ _ _ | .eqpp _ _ | .sse _ | .se _
  | .be => False

/-- The configure sequence's step in each phase of INIT (R305). -/
def subOk (p : Phase) (b : Sub) : Prop :=
  match p with
  | .welIssue | .welPoll => b = .cfgWr
  | .frame => b ≠ .none
  | _ => True

/-- The control state of the block. -/
structure ControlInv (s : State) : Prop where
  /-- R457: BUSY iff a command runs -/
  busy_iff : s.reg.busy = true ↔ s.reg.phase ≠ .idle ∧ s.reg.phase ≠ .halted
  /-- R61: a transfer in flight, no flag set -/
  dma_flags : s.st.dma ≠ .idle → s.st.tc = false ∧ s.st.rc = false
  /-- R206: a receive is in flight only while the CSM waits for it -/
  rx_phase : ∀ d n a k, s.st.dma = .rx d n a k → s.reg.phase = .waitRx
  /-- R206: a transmit is in flight only while the CSM waits for it -/
  tx_phase : ∀ p n a, s.st.dma = .tx p n a → s.reg.phase = .waitTx
  /-- R207: SCRATCH takes one logical sector -/
  rx_scratch : ∀ n a k, s.st.dma = .rx .scratch n a k → n = s.cfg.sectorSize
  /-- R212: a flag is set only while the CSM waits for it -/
  tc_phase : s.st.tc = true → s.reg.phase = .waitTx
  rc_phase : s.st.rc = true → s.reg.phase = .waitRx
  /-- R217: a poll runs only in the poll phases -/
  poll_phase : s.st.pollActive = true → s.reg.phase = .welPoll ∨ s.reg.phase = .busyPoll
  /-- R221: a running poll has no verdict -/
  poll_verdict : s.st.pollActive = true → s.st.verdict = .none
  /-- R215: the short chip-select time only while a read is waited for -/
  csht_default : s.reg.phase ≠ .waitRx → s.st.csht = s.cfg.cshtDefault
  /-- R457: the latched opcode is the command word's -/
  op_cmd : s.reg.busy = true → s.st.op = cmdOp s.reg.cmd
  /-- R43, R63: the bus is configured in every state but UNINIT -/
  bus_on : s.st.bus ≠ .off ↔ s.reg.initState ≠ .uninit
  /-- R43: BUS_READY only while INIT runs -/
  bus_ready : s.reg.initState = .busReady → s.st.op = 1 ∧ s.reg.busy = true ∧ s.reg.phase ≠ .check
  /-- R45: past CHECK the phase is one of the command's, in a lifecycle state that lets it run -/
  past_check : s.reg.busy = true → s.reg.phase ≠ .check →
    ∃ i, decodeOp s.st.op = .ok i ∧ s.reg.phase ∈ commandPhases i ∧ lifecycleOk i s.reg.phase s.reg.initState
      ∧ (i = .init → subOk s.reg.phase s.st.sub)
  /-- R62: one logical sector -/
  scratch_len : s.st.scratch.length = s.cfg.sectorSize

/-! ## The write-split engine -/

/-- A frame within one page (R365). -/
def withinPage (page off n : Nat) : Prop := off % page + n ≤ page

/-- The chunk a WRITE has at hand is the law's: it is not empty, it stays in its page and in the request, it ends at a
page boundary or at the end, and both cursor and length are word multiples (R361, R365, R113). -/
structure ChunkOk (s : State) : Prop where
  pos : 4 ≤ s.st.chunk.toNat
  page : withinPage s.cfg.pageSize s.st.cur.toNat s.st.chunk.toNat
  within : s.st.cur.toNat + s.st.chunk.toNat ≤ s.st.stop.toNat
  law : s.st.chunk.toNat = firstChunk s.cfg.pageSize s.st.cur.toNat s.st.stop.toNat
  stop_le : s.st.stop.toNat ≤ s.cfg.capacity
  cur_word : s.st.cur.toNat % 4 = 0
  stop_word : s.st.stop.toNat % 4 = 0
  chunk_word : s.st.chunk.toNat % 4 = 0

/-- The split engine: while a WRITE runs past CHECK its chunk is right, and no page program ever sent straddles a page
(R365 item 1). -/
structure SplitInv (s : State) : Prop where
  control : ControlInv s
  chunk : s.reg.busy = true → s.reg.phase ≠ .check → s.st.op = 4 → ChunkOk s
  sent : ∀ it ∈ s.out.busLog, it.frame.instr = s.cfg.opcEqpp →
    withinPage s.cfg.pageSize it.frame.addr.toNat it.frame.nbytes.toNat

/-! ## The frames on the bus -/

/-- A frame that needs the latch: EQPP, SSE, SE, BE, WRVCR (R302). -/
def needsLatch (c : Cfg) (f : Frame) : Bool :=
  f.instr = c.opcEqpp || f.instr = c.opcSse || f.instr = c.opcSe || f.instr = c.opcBe || f.instr = c.opcWrvcr

/-- The newest frame that is not a status read is a WREN that command `n` sent (R300, R302). -/
def latchedBy (c : Cfg) (n : Nat) (log : List BusItem) : Prop :=
  ∃ it rest, log.dropWhile (fun it => it.frame.instr = c.opcRdsr) = it :: rest ∧ it.frame.instr = c.opcWren
    ∧ it.result = .ok ∧ it.cmd = n

/-- The newest frame is a status read that showed the latch set: the latch poll's MATCH (R301, R220). -/
def sawLatch (c : Cfg) (log : List BusItem) : Prop :=
  ∃ it rest v, log = it :: rest ∧ it.frame.instr = c.opcRdsr ∧ it.rx = [v] ∧ v &&& c.srWelMask = c.srWelMask

/-- Every frame that needs the latch follows a WREN of the same command, with status reads only between, the last of
which showed the latch set (R302). -/
def latchDiscipline (c : Cfg) : List BusItem → Prop
  | [] => True
  | it :: rest =>
    (needsLatch c it.frame = true → latchedBy c it.cmd rest ∧ sawLatch c rest) ∧ latchDiscipline c rest

/-- Where the CSM is about to send a frame that needs the latch. -/
def sendsLatched (s : State) : Prop :=
  s.reg.phase = .frame ∧ (s.st.op = 4 ∨ s.st.op = 5 ∨ s.st.op = 8 ∨ (s.st.op = 1 ∧ s.st.sub = .cfgWr))

/-- The latch discipline of R302, with what carries it from step to step. -/
structure LatchInv (s : State) : Prop where
  control : ControlInv s
  sent : latchDiscipline s.cfg s.out.busLog
  /-- R301: the latch poll runs after this command's WREN, for the latch bit -/
  polls : s.reg.phase = .welPoll →
    latchedBy s.cfg s.out.commands s.out.busLog ∧ s.st.pollMask = s.cfg.srWelMask ∧ s.st.pollMatch = s.cfg.srWelMask
  /-- R221: the verdict MATCH is that of the last sample -/
  saw : s.reg.phase = .welPoll → s.st.verdict = .matched → sawLatch s.cfg s.out.busLog
  /-- R302: the frame follows the MATCH -/
  pending : sendsLatched s → latchedBy s.cfg s.out.commands s.out.busLog ∧ sawLatch s.cfg s.out.busLog

/-- The block sends only the nine instructions of R157 (R159). -/
def SendsOnlyNine (s : State) : Prop := ∀ it ∈ s.out.busLog, it.frame.instr ∈ s.cfg.opcodes

/-! ## Runs -/

/-- What a state reaches in any number of steps. -/
inductive Reaches : State → State → Prop where
  | refl (s : State) : Reaches s s
  | step {s t u : State} : Reaches s t → Machine.step t = .next u → Reaches s u

/-- An infinite run: at each place the schedule's agent takes its turn (R200). A turn whose guard does not hold is no step
of the hardware and leaves the state as it is (log 3). -/
def Runs (schedule : Nat → Agent) (r : Nat → State) : Prop :=
  ∀ n, Machine.step { r n with env.agenda := [schedule n] } = .next (r (n + 1))

/-- The fairness the spec assumes of a run: whatever stays enabled from some place on is taken at or after it, and so, this
being said of every place, infinitely often. -/
structure FairRun (schedule : Nat → Agent) (r : Nat → State) : Prop where
  runs : Runs schedule r
  /-- R222: tick steps while a poll is active; a turn that the guard of R263 stops is no tick step -/
  ticks : ∀ n, (∀ m, n ≤ m → (r m).st.pollActive = true) →
    ∃ m, n ≤ m ∧ schedule m = .tick ∧ tickEnabled (r m) = true
  /-- R222: sample steps while a poll is active; there is none while reset is asserted (R500) -/
  samples : ∀ n, (∀ m, n ≤ m → (r m).st.pollActive = true) →
    ∃ m, n ≤ m ∧ schedule m = .sample ∧ (r m).env.inReset = false
  /-- R263: the device's completion step while an operation runs -/
  completions : ∀ n, (∀ m, n ≤ m → (r m).dev.op ≠ .none) → ∃ m, n ≤ m ∧ schedule m = .device

/-- The step ends in a fault. -/
def Faults (s : State) : Prop := ∃ f, step s = .fault f

end Sys2Proof.Machine
end

