-- ==== Sys2Proof/Certificates/Slice0/Obligations.lean ====
section
/-! DEFINITION. The statements about the model. `Spec.*` write the spec's own sequences out field by field, so that a
statement says what the rule says and everything a state update leaves alone. -/

open Sys2Proof Sys2Proof.Machine

namespace Sys2Proof.Spec

/-- The state after the success sequence of R459: five fields of STATUS and `st.sub`, nothing else. -/
def done (s : State) : State :=
  { s with
    st.sub := .none
    reg.busy := false
    reg.done := true
    reg.err := false
    reg.errcode := .none
    reg.phase := .idle }

/-- R49, R461: a count that stops at 0xFFFF_FFFF. -/
def counted (n : Word) : Word := if n = 0xFFFFFFFF then n else n + 1

/-- The state after the failure sequence of R460, with the hook of R461 and the halt policy of R464. -/
def failed (code : ErrCode) (info : Word) (s : State) : State :=
  { s with
    reg.errcode := code
    reg.errinfo := info
    reg.errphase := s.reg.phase
    st.csht := s.cfg.cshtDefault
    st.pollActive := false
    st.verdict := .none
    reg.initState := if s.st.op = 1 ∧ s.reg.initState = .busReady then .failed else s.reg.initState
    reg.syserrCode := code.code.setWidth 32
    reg.syserrCount := counted s.reg.syserrCount
    st.sub := .none
    reg.busy := false
    reg.done := true
    reg.err := true
    reg.phase := if s.reg.haltOnErr then .halted else .idle }

/-- The state after `poll(mask, match, budget)` of R219. -/
def polls (mask target : Byte) (budget : Nat) (s : State) : State :=
  { s with
    st.pollMask := mask
    st.pollMatch := target
    st.pollBudget := BitVec.ofNat 32 budget
    st.pollElapsed := 0
    st.verdict := .none
    st.pollActive := true }

/-- The frame has gone out on the bus, sent by the running command; `rx` is what the device drove in it. -/
def sent (f : Frame) (r : XResult) (rx : List Byte) (s : State) : State :=
  { s with out.busLog := { cmd := s.out.commands, frame := f, result := r, rx := rx } :: s.out.busLog }

/-- The failure information of R462 for TRANSPORT and TIMEOUT. -/
def failInfo (i : Instr) (s : State) : Word :=
  match i with
  | .read | .write | .eraseVerify => BitVec.ofNat 32 (s.cfg.bias + s.st.cur.toNat)
  | .erase => s.st.bi
  | _ => 0

/-- WREN at the device (R252). -/
def latched (s : State) : State := if s.dev.op = .none then { s with dev.wel := true } else s

/-- A program or an erase starting at the device: only idle and with the latch set (R251). -/
def starts (op : DevOp) (s : State) : State :=
  if s.dev.op = .none ∧ s.dev.wel = true then { s with dev.op := op, dev.age := 0 } else s

/-- The first failing operand check of R456, in its order, in exact arithmetic. -/
def operandFailure (i : Instr) (s : State) : Option (ErrCode × Word) :=
  let addr := s.reg.addr.toNat
  let w := s.reg.wcount.toNat
  let b := s.reg.block.toNat
  match i with
  | .read | .write =>
    if addr < s.cfg.lowBound ∨ addr > s.cfg.highBound then some (.range, s.reg.addr)
    else if addr % 4 ≠ 0 then some (.param, s.reg.addr)
    else if w > 0 ∧ addr + 4 * w - 1 > s.cfg.highBound then some (.range, s.reg.addr)
    else if s.reg.ptr = 0 then some (.param, s.reg.ptr)
    else if s.reg.ptr.toNat % 4 ≠ 0 then some (.param, s.reg.ptr)
    else none
  | .erase =>
    if b ≥ s.cfg.blockCount then some (.range, s.reg.block)
    else if b + s.reg.count.toNat > s.cfg.blockCount then some (.range, s.reg.block)
    else none
  | .eraseVerify => if b ≥ s.cfg.blockCount then some (.range, s.reg.block) else none
  | _ => none

/-- The lifecycle check of R455 that a command fails, after the check of the word itself. -/
def lifecycleFailure (i : Instr) (s : State) : Option (ErrCode × Word) :=
  match i with
  | .init => if s.reg.initState ≠ .uninit then some (.state, s.reg.initState.code.setWidth 32) else none
  | .read | .write | .erase | .eraseVerify | .bulkErase =>
    if s.reg.initState ≠ .ready then some (.notReady, s.reg.cmd) else none
  | .writeEnable | .readStatus => if s.reg.initState = .uninit then some (.notReady, s.reg.cmd) else none
  | _ => none

/-- The CSM is the next to step, the block is out of reset. -/
def csmNext (s : State) (rest : List Agent) : Prop := s.env.agenda = .csm :: rest ∧ s.env.inReset = false

/-- The host's access `op` is the next thing to happen, the block is out of reset. -/
def hostNext (op : HostOp) (p : List HostOp) (s : State) (rest : List Agent) : Prop :=
  s.env.agenda = .host :: rest ∧ s.env.prog = op :: p ∧ s.env.inReset = false

/-- What is left of the schedule once the step's agent is taken. -/
def taken (rest : List Agent) (s : State) : State := { s with env.agenda := rest }

/-- The device offset of a READ or WRITE (R103, R154). -/
def offset (s : State) : Nat := s.reg.addr.toNat - s.cfg.bias

/-- The byte length of a READ or WRITE (R154). -/
def length (s : State) : Nat := 4 * s.reg.wcount.toNat

/-- The registers of R33 and R53, each at its offset with the value a host reads there. -/
def registers (s : State) : List (Nat × Word) :=
  [(0x00, (if s.reg.haltOnErr then 2 else 0) + if s.reg.ie then 1 else 0), (0x04, s.reg.cmd), (0x08, s.reg.addr),
    (0x0C, s.reg.ptr), (0x10, s.reg.wcount), (0x14, s.reg.block), (0x18, s.reg.count), (0x1C, s.reg.ecode),
    (0x20, statusWord s.reg), (0x24, s.reg.errinfo), (0x28, s.reg.errphase.code.setWidth 32),
    (0x2C, s.reg.syserrCode), (0x30, s.reg.syserrCount), (0x34, s.reg.devSr.setWidth 32),
    (0x38, s.reg.devVcr.setWidth 32), (0x3C, s.st.csht.setWidth 32), (0x40, BitVec.ofNat 32 s.cfg.bias),
    (0x44, BitVec.ofNat 32 s.cfg.capacity), (0x48, BitVec.ofNat 32 s.cfg.blockSize),
    (0x4C, BitVec.ofNat 32 s.cfg.blockCount), (0x50, BitVec.ofNat 32 (s.cfg.blockSize / 4)),
    (0x54, BitVec.ofNat 32 s.cfg.pageSize), (0x58, BitVec.ofNat 32 s.cfg.sectorSize),
    (0x5C, BitVec.ofNat 32 s.cfg.dummyCycles)]

/-- The bytes a transmit of `n` bytes from host address `a` may move: at each place the byte there, or one it had before
the host changed it while the WRITE runs (R120; log 19). -/
def mayMove (s : State) (a n : Nat) (bytes : List Byte) : Prop :=
  bytes.length = n ∧ ∀ i b, bytes[i]? = some b → b = s.hostByte (a + i) ∨ (a + i, b) ∈ s.env.stale

/-- What an EQPP of `n` host bytes at `src`, cut after `k` of them, leaves of the device (R204, R257; log 18): nothing
changed, or the program of those first bytes started. -/
def cutProgram (s : State) (a : Off24) (src : Word) (n k : Nat) (dv : Device) : Prop :=
  dv = s.dev ∨ (s.dev.op = .none ∧ s.dev.wel = true ∧ ∃ bytes, mayMove s src.toNat n bytes ∧
    dv = { s.dev with
      op := .program (a.toNat - a.toNat % s.cfg.pageSize)
        (fillLatch s.cfg.pageSize (List.replicate s.cfg.pageSize 0xFF) a.toNat (bytes.take k))
      age := 0 })

/-- What R501 lets a reset leave of a transfer: host memory and the device as they were, or changed by the transfer's
first bytes; the array itself never. -/
def sameArray (s t : State) : Prop := t.dev.array = s.dev.array ∧ t.dev.vcr = s.dev.vcr

/-- The maximum latency of an operation's kind (R263). -/
def tmax (c : Cfg) : DevOp → Nat
  | .none => 0
  | .program _ _ => c.devTmaxPp
  | .erase .sse _ _ => c.devTmaxSse
  | .erase .se _ _ => c.devTmaxSe
  | .erase .be _ _ => c.devTmaxBe

/-- The agents of one chunk of a WRITE, each taking its step when its turn comes (R359). -/
def chunkTurns : List Agent := [.csm, .sample, .csm, .csm, .dma, .csm, .device, .sample, .csm, .csm]

/-- The number of chunks of a WRITE (R361). -/
def chunkCount (page o n : Nat) : Nat := (o % page + n + page - 1) / page

end Sys2Proof.Spec

open Sys2Proof.Spec

/-! ## Encoding -/

/-- All twenty words of the opcode table, written out from R152 and R158, decode to their instructions, and words that are
none of them to none (sanity). Where a frame has operands, those of the decoded instruction are the model's choice (log 8):
operand bits zero, one data byte, EX1's dummy count. -/
def Obligations.TableWordsDecode : Prop :=
  decodeTableWord 32 0x00000000 = some .nop ∧ decodeTableWord 32 0x00000001 = some .init
    ∧ decodeTableWord 32 0x00000002 = some .deinit ∧ decodeTableWord 32 0x00000003 = some .read
    ∧ decodeTableWord 32 0x00000004 = some .write ∧ decodeTableWord 32 0x00000005 = some .erase
    ∧ decodeTableWord 32 0x00000006 = some .eraseVerify ∧ decodeTableWord 32 0x00000007 = some .systemError
    ∧ decodeTableWord 32 0x00000008 = some .bulkErase ∧ decodeTableWord 32 0x00000009 = some .writeEnable
    ∧ decodeTableWord 32 0x0000000A = some .readStatus ∧ decodeTableWord 32 0x0000000B = none
    ∧ decodeTableWord 32 0x00000013 = none ∧ decodeTableWord 8 0x06 = some .wren
    ∧ decodeTableWord 8 0x05 = some .rdsr ∧ decodeTableWord 8 0x85 = some .rdvcr
    ∧ decodeTableWord 8 0x81 = some (.wrvcr 0) ∧ decodeTableWord 8 0xEB = some (.qiofr 0 10 1)
    ∧ decodeTableWord 8 0x12 = some (.eqpp 0 [0]) ∧ decodeTableWord 8 0x20 = some (.sse 0)
    ∧ decodeTableWord 8 0xD8 = some (.se 0) ∧ decodeTableWord 8 0xC7 = some .be ∧ decodeTableWord 8 0x9F = none

/-- Decoding what was encoded gives the instruction back, for every well-formed instruction under every valid
configuration, with every operand at every value. -/
def Obligations.DecodeEncodeRoundTrip : Prop :=
  ∀ (c : Cfg) (i : Instr), c.Valid → i.wf = true → ∃ e, encode c i = some e ∧ decode c e = .ok i

/-- An item that decodes is the encoding of what it decodes to, and that is well formed: no two items share a meaning. For
frames this rests on the model's one canonical descriptor, absent fields zero and empty data refused (log 8). -/
def Obligations.EncodingIsUnique : Prop :=
  ∀ (c : Cfg) (e : Encoded) (i : Instr), decode c e = .ok i → encode c i = some e ∧ i.wf = true

/-! ## The step -/

/-- When the CSM is next and its phase's condition holds, the step is `exec` of the instruction decoded from CMD in CHECK
and from the latched opcode in a later phase. -/
def Obligations.StepRunsTheDecodedCommand : Prop :=
  ∀ (s : State) (rest : List Agent) (i : Instr), csmNext s rest → csmEnabled s = true →
    decodeCmd (if s.reg.phase = .check then s.reg.cmd else s.st.op.setWidth 32) = .ok i →
    step s = exec i (taken rest s)

/-- When another agent's frame is next on the bus, the step is `exec` of the instruction it decodes to; a frame that is
none of the nine instructions is ignored (R251; log 6). -/
def Obligations.StepRunsTheDecodedFrame : Prop :=
  ∀ (s : State) (rest : List Agent) (f : Frame) (fs : List Frame),
    s.env.agenda = .bus :: rest → s.env.foreign = f :: fs →
    (∀ i, decodeFrame s.cfg f = .ok i → step s = exec i { s with env.agenda := rest, env.foreign := fs }) ∧
    (∀ e, decodeFrame s.cfg f = .error e → step s = .next { s with env.agenda := rest, env.foreign := fs })

/-- While the phase's condition of R44 does not hold the CSM takes no step: in IDLE and HALTED, in a poll phase without a
verdict, in a wait phase without its flag. -/
def Obligations.CsmWaitsForItsCondition : Prop :=
  ∀ (s : State) (rest : List Agent), csmNext s rest →
    (s.reg.phase = .idle ∨ s.reg.phase = .halted ∨ (s.reg.phase = .welPoll ∧ s.st.verdict = .none) ∨
      (s.reg.phase = .busyPoll ∧ s.st.verdict = .none) ∨ (s.reg.phase = .waitTx ∧ s.st.tc = false) ∨
      (s.reg.phase = .waitRx ∧ s.st.rc = false)) →
    step s = .next (taken rest s)

/-- A draw takes the next of its list and touches nothing else; past the end of a list the value is an opaque constant at
the counter, which advances (R14; log 4). -/
def Obligations.DrawsTouchOnlyDraws : Prop :=
  ∀ (s : State),
    (∀ r rs, s.env.draws.results = r :: rs → takeResult s = (r, { s with env.draws.results := rs })) ∧
    (∀ k ks, s.env.draws.choices = k :: ks → takeChoice s = (k, { s with env.draws.choices := ks })) ∧
    (∀ b bs, s.env.draws.bytes = b :: bs → takeByte s = (b, { s with env.draws.bytes := bs })) ∧
    ∃ n t, n = s.env.draws.count ∧ t = { s with env.draws.count := n + 1 } ∧
      (s.env.draws.results = [] → takeResult s = (Config.freeResult n, t)) ∧
      (s.env.draws.choices = [] → takeChoice s = (Config.freeChoice n, t)) ∧
      (s.env.draws.bytes = [] → takeByte s = (Config.freeByte n, t))

/-! ## The host port -/

/-- R457: a host write of a word to CMD is accepted when the CSM is idle, and dropped with OVR set when it is busy or
halted. -/
def Obligations.CommandWriteAcceptedOrDropped : Prop :=
  ∀ (s : State) (rest : List Agent) (p : List HostOp) (w : Word), hostNext (.write 0x04 4 w) p s rest →
    ∃ t, t = { s with env.agenda := rest, env.prog := p } ∧
      ((s.reg.busy = true ∨ s.reg.phase = .halted) → step s = .next { t with reg.ovr := true }) ∧
      (¬ (s.reg.busy = true ∨ s.reg.phase = .halted) →
        step s = .next
          { t with
            reg.cmd := w
            st.op := w.setWidth 4
            st.sub := .none
            reg.done := false
            reg.err := false
            reg.errcode := .none
            reg.busy := true
            reg.phase := .check
            env.stale := []
            out.commands := s.out.commands + 1 })

/-- R465: a host write to STATUS clears DONE, ERR and OVR where it has a 1 and releases HALTED with ERR; all else stays. -/
def Obligations.StatusWriteClearsAndReleases : Prop :=
  ∀ (s : State) (rest : List Agent) (p : List HostOp) (w : Word), hostNext (.write 0x20 4 w) p s rest →
    step s = .next
      { s with
        env.agenda := rest
        env.prog := p
        reg.done := if w.getLsbD 1 then false else s.reg.done
        reg.err := if w.getLsbD 2 then false else s.reg.err
        reg.phase := if w.getLsbD 2 = true ∧ s.reg.phase = .halted then .idle else s.reg.phase
        reg.ovr := if w.getLsbD 3 then false else s.reg.ovr }

/-- R32 to R41: a host write step puts the word written into an operand register, which reads it back; CTRL keeps bits
1:0; a write to a read-only register or a reserved offset changes nothing, and a reserved offset reads zero. -/
def Obligations.RegisterWritesTakeEffect : Prop :=
  ∀ (s : State) (rest : List Agent) (p : List HostOp) (off : Nat) (v : Word),
    (hostNext (.write off 4 v) p s rest → ∃ t, t = { s with env.agenda := rest, env.prog := p } ∧
      (off = 0x00 → step s = .next { t with reg.ie := v.getLsbD 0, reg.haltOnErr := v.getLsbD 1 }) ∧
      (off = 0x08 → step s = .next { t with reg.addr := v }) ∧
      (off = 0x0C → step s = .next { t with reg.ptr := v }) ∧
      (off = 0x10 → step s = .next { t with reg.wcount := v }) ∧
      (off = 0x14 → step s = .next { t with reg.block := v }) ∧
      (off = 0x18 → step s = .next { t with reg.count := v }) ∧
      (off = 0x1C → step s = .next { t with reg.ecode := v }) ∧
      (0x24 ≤ off → off < 256 → off % 4 = 0 → step s = .next t)) ∧
    (off ∈ [0x08, 0x0C, 0x10, 0x14, 0x18, 0x1C] → readWindow off (writeWindow off v s) = v) ∧
    readWindow 0x00 (writeWindow 0x00 v s) = v &&& 3 ∧ (0x60 ≤ off → readWindow off s = 0)

/-- R32, R33, R46 to R53: a host read step of an aligned word of the window returns the register's value, zero at a
reserved offset, and changes nothing else; an access of another width or off a word boundary is refused. R163: the wait
access reads STATUS and comes again until bit 1 of the value is 1 (the model's one access, log 5). -/
def Obligations.HostReadHasNoSideEffect : Prop :=
  ∀ (s : State) (rest : List Agent) (p : List HostOp) (off width : Nat) (v : Word),
    (hostNext (.read off width) p s rest → width = 4 → off % 4 = 0 → off < 256 →
      ∃ w, step s = .next { s with env.agenda := rest, env.prog := p, out.hostRd := w } ∧ w = readWindow off s ∧
        ((off, v) ∈ registers s → w = v) ∧ (0x60 ≤ off → w = 0)) ∧
    (hostNext (.read off width) p s rest ∨ hostNext (.write off width v) p s rest →
      (width ≠ 4 → step s = .refused .badAccessWidth) ∧
      (width = 4 → off % 4 ≠ 0 → step s = .refused .badAccessAlignment)) ∧
    (hostNext .wait p s rest →
      ∃ w, w = statusWord s.reg ∧
        step s = .next { s with
          env.agenda := rest
          env.prog := if w.getLsbD 1 = true then p else .wait :: p
          out.hostRd := w })

/-- R42, R54, R44, R43, R451: where STATUS holds its fields, the codes of the phases, lifecycle states and errors, and the
IRQ level, which falls when the host clears DONE or IE. -/
def Obligations.StatusFieldsAndIrq : Prop :=
  ∀ (s : State),
    (statusWord s.reg).getLsbD 0 = s.reg.busy ∧ (statusWord s.reg).getLsbD 1 = s.reg.done ∧
    (statusWord s.reg).getLsbD 2 = s.reg.err ∧ (statusWord s.reg).getLsbD 3 = s.reg.ovr ∧
    (statusWord s.reg).getLsbD 4 = decide (s.reg.phase = .halted) ∧ (statusWord s.reg).extractLsb' 5 3 = 0 ∧
    (statusWord s.reg).extractLsb' 8 4 = s.reg.initState.code ∧ (statusWord s.reg).extractLsb' 12 4 = 0 ∧
    (statusWord s.reg).extractLsb' 16 8 = s.reg.errcode.code ∧ (statusWord s.reg).extractLsb' 24 5 = s.reg.phase.code ∧
    (statusWord s.reg).extractLsb' 29 3 = 0 ∧ irq s = (s.reg.ie && s.reg.done) ∧
    (∀ v : Word, v.getLsbD 1 = true → irq (writeWindow 0x20 v s) = false) ∧
    (∀ v : Word, v.getLsbD 0 = false → irq (writeWindow 0x00 v s) = false) ∧
    [Phase.idle, .check, .busInit, .welIssue, .welPoll, .frame, .waitTx, .waitRx, .busyPoll, .compare, .advance,
      .halted].map Phase.code = [0x00, 0x01, 0x02, 0x03, 0x04, 0x05, 0x06, 0x07, 0x08, 0x09, 0x0A, 0x0B] ∧
    [InitState.uninit, .busReady, .ready, .failed].map InitState.code = [0, 1, 2, 3] ∧
    [ErrCode.none, .range, .param, .transport, .timeout, .verifyMismatch, .configMismatch, .notReady, .state,
      .illegalCmd].map ErrCode.code = [0x00, 0x01, 0x02, 0x03, 0x04, 0x05, 0x06, 0x07, 0x08, 0x09]

/-! ## Checks -/

/-- R455: the common checks of CHECK, in their order; NOP, DEINIT and SYSTEM_ERROR pass them in every state. The command
is the one CMD holds, where R455 tests st.op (log 23). -/
def Obligations.CommonChecksInOrder : Prop :=
  ∀ (s : State) (rest : List Agent), csmNext s rest → s.reg.phase = .check →
    (s.reg.cmd.extractLsb' 4 28 ≠ 0 ∨ 0xB ≤ (s.reg.cmd.extractLsb' 0 4).toNat →
      step s = .next (failed .illegalCmd s.reg.cmd (taken rest s))) ∧
    (∀ i, s.reg.cmd.extractLsb' 4 28 = 0 → decodeOp (s.reg.cmd.extractLsb' 0 4) = .ok i →
      (∀ code info, lifecycleFailure i s = some (code, info) → step s = .next (failed code info (taken rest s))) ∧
      (i ∈ [Instr.nop, .deinit, .systemError] → ∃ t, step s = .next t ∧ t.reg.err = false ∧ t.reg.done = true))

/-- R456: the operand checks, in their order and in exact arithmetic; the first that fails is reported, with its code and
information, and the failure sequence is the whole step. -/
def Obligations.OperandChecksInOrder : Prop :=
  ∀ (i : Instr) (s : State) (code : ErrCode) (info : Word), i ∈ [Instr.read, .write, .erase, .eraseVerify] →
    s.reg.phase = .check → s.reg.initState = .ready → operandFailure i s = some (code, info) →
    exec i s = .next (failed code info s)

/-- A command whose checks pass goes to the phase its rule gives, nothing else changed: INIT to BUS_INIT (R421), BULK_ERASE
and WRITE_ENABLE to WEL_ISSUE (R375, R424), READ_STATUS to FRAME (R425). -/
def Obligations.CheckStartsTheCommand : Prop :=
  ∀ s : State, s.reg.phase = .check →
    (s.reg.initState = .uninit → exec .init s = .next { s with reg.phase := .busInit }) ∧
    (s.reg.initState = .ready → exec .bulkErase s = .next { s with reg.phase := .welIssue }) ∧
    (s.reg.initState ≠ .uninit → exec .writeEnable s = .next { s with reg.phase := .welIssue }) ∧
    (s.reg.initState ≠ .uninit → exec .readStatus s = .next { s with reg.phase := .frame })

/-! ## Control commands -/

/-- R420: NOP is the success sequence and nothing else. -/
def Obligations.NopCompletes : Prop := ∀ s : State, s.reg.phase = .check → exec .nop s = .next (done s)

/-- R423: SYSTEM_ERROR records ECODE, counts the hook (saturating) and succeeds, whatever HALT_ON_ERR is. -/
def Obligations.SystemErrorRecordsAndCompletes : Prop :=
  ∀ s : State, s.reg.phase = .check →
    exec .systemError s =
      .next (done { s with reg.syserrCode := s.reg.ecode, reg.syserrCount := counted s.reg.syserrCount })

/-- R422: DEINIT turns a configured bus off, makes the block UNINIT and succeeds; the device is not touched. -/
def Obligations.DeinitCompletes : Prop :=
  ∀ s : State, s.reg.phase = .check →
    (s.st.bus = .off → exec .deinit s = .next (done { s with reg.initState := .uninit })) ∧
    (s.st.bus ≠ .off →
      exec .deinit s =
        .next (done { s with st.bus := .off, st.csht := s.cfg.cshtDefault, reg.initState := .uninit }))

/-- R421 and R214: the BUS_INIT step, for both results of the bus set-up. -/
def Obligations.InitSetsUpTheBus : Prop :=
  ∀ (s s0 : State), s.reg.phase = .busInit →
    (takeResult s = (.ok, s0) →
      exec .init s =
        .next
          { s0 with
            st.bus := .on { prescaler := s.cfg.busPrescaler, fifoThreshold := s.cfg.fifoThreshold,
                            csht := s.cfg.cshtDefault, clockMode := s.cfg.clockMode, addrBytes := s.cfg.addrBytes }
            st.csht := s.cfg.cshtDefault
            reg.initState := .busReady
            st.sub := .cfgRd0
            reg.phase := .frame }) ∧
    (takeResult s = (.xfail, s0) → exec .init s = .next (failed .transport 0 s0))

/-- R305: the three frames of the configure sequence, the device idle or busy, latched or not, and the failure of each with
the effects R204 allows: CFG_RD0 and CFG_RD1 read the VCR, CFG_WR writes it if the device is idle and latched. -/
def Obligations.InitConfiguresTheDevice : Prop :=
  ∀ (s s0 : State), s.reg.phase = .frame →
    ∃ rd wr, rd = regInFrame s.cfg.opcRdvcr ∧ wr = regOutFrame s.cfg.opcWrvcr s.st.vcrProg ∧
    (takeResult s = (.ok, s0) → s.st.sub = .cfgRd0 →
      ∃ v d, exec .init s =
        .next
          { sent rd .ok [v] s0 with
            env.draws := d
            out.busRx := [v]
            reg.devVcr := v
            st.vcrProg := (v &&& ~~~s.cfg.vcrDcMask) |||
              (BitVec.ofNat 8 (s.cfg.dummyCycles <<< s.cfg.vcrDcShift) &&& s.cfg.vcrDcMask)
            st.sub := .cfgWr
            reg.phase := .welIssue } ∧ (s.dev.op = .none → v = s.dev.vcr ∧ d = s0.env.draws)) ∧
    (takeResult s = (.ok, s0) → s.st.sub = .cfgWr →
      (s.dev.op = .none → s.dev.wel = true →
        ∃ w d, exec .init s =
          .next
            { sent wr .ok [] s0 with
              dev.vcr := s.st.vcrProg
              dev.wel := w
              env.draws := d
              st.sub := .cfgRd1
              reg.phase := .frame } ∧ (∀ b, s.cfg.wrvcrClearsWel = some b → w = !b)) ∧
      (s.dev.op ≠ .none ∨ s.dev.wel = false →
        exec .init s = .next { sent wr .ok [] s0 with st.sub := .cfgRd1, reg.phase := .frame })) ∧
    (takeResult s = (.ok, s0) → s.st.sub = .cfgRd1 →
      ∃ v d, exec .init s =
        .next
          { sent rd .ok [v] s0 with
            env.draws := d
            out.busRx := [v]
            reg.devVcr := v
            reg.phase := .compare } ∧ (s.dev.op = .none → v = s.dev.vcr ∧ d = s0.env.draws)) ∧
    (takeResult s = (.xfail, s0) → s.st.sub = .cfgRd0 ∨ s.st.sub = .cfgRd1 →
      ∃ d, exec .init s = .next (failed .transport 0 { sent rd .xfail [] s0 with env.draws := d })) ∧
    (takeResult s = (.xfail, s0) → s.st.sub = .cfgWr →
      ∃ d dv, exec .init s = .next (failed .transport 0 { sent wr .xfail [] s0 with env.draws := d, dev := dv }) ∧
        (dv = s.dev ∨ (s.dev.op = .none ∧ s.dev.wel = true ∧
          ∃ v w, dv = { s.dev with vcr := v, wel := w } ∧ (v = s.st.vcrProg ∨ v = s.dev.vcr) ∧
            (∀ b, s.cfg.wrvcrClearsWel = some b → w = !b))))

/-- R306: the read-back check. The dummy fields differ: CONFIG_MISMATCH with the byte read back; else READY and success. -/
def Obligations.InitComparesTheReadBack : Prop :=
  ∀ s : State, s.reg.phase = .compare →
    (s.reg.devVcr &&& s.cfg.vcrDcMask ≠ s.st.vcrProg &&& s.cfg.vcrDcMask →
      exec .init s = .next (failed .configMismatch (s.reg.devVcr.setWidth 32) s)) ∧
    (s.reg.devVcr &&& s.cfg.vcrDcMask = s.st.vcrProg &&& s.cfg.vcrDcMask →
      exec .init s = .next (done { s with reg.initState := .ready }))

/-- R300: the WEL_ISSUE step of every command that has it: WREN goes out and the latch poll starts; a failed issue raises
TRANSPORT, the WREN having acted or not. -/
def Obligations.WelIssueSendsWrenAndPolls : Prop :=
  ∀ (i : Instr) (s s0 : State), i ∈ [Instr.init, .write, .erase, .bulkErase, .writeEnable] → s.reg.phase = .welIssue →
    (takeResult s = (.ok, s0) →
      exec i s =
        .next
          { polls s.cfg.srWelMask s.cfg.srWelMask s.cfg.tWel (sent (bareFrame s.cfg.opcWren) .ok [] (latched s0)) with
            reg.phase := .welPoll }) ∧
    (takeResult s = (.xfail, s0) →
      ∃ s1, (∃ d, s1 = { sent (bareFrame s.cfg.opcWren) .xfail [] s0 with env.draws := d }) ∧
        (exec i s = .next (failed .transport (failInfo i s) s1) ∨
          exec i s = .next (failed .transport (failInfo i s) (latched s1))))

/-- R301: the WEL_POLL step: TIMEOUT fails the command; MATCH lets it go on to its frame, and completes WRITE_ENABLE. -/
def Obligations.WelPollConsumesTheVerdict : Prop :=
  ∀ (i : Instr) (s : State), i ∈ [Instr.init, .write, .erase, .bulkErase, .writeEnable] → s.reg.phase = .welPoll →
    (s.st.verdict = .timeout → exec i s = .next (failed .timeout (failInfo i s) { s with st.verdict := .none })) ∧
    (s.st.verdict = .matched → i ≠ .writeEnable →
      exec i s = .next { s with st.verdict := .none, reg.phase := .frame }) ∧
    (s.st.verdict = .matched → i = .writeEnable → exec i s = .next (done { s with st.verdict := .none }))

/-- R304: the BUSY_POLL step: TIMEOUT fails the command; MATCH lets WRITE and ERASE advance and completes BULK_ERASE. -/
def Obligations.BusyPollConsumesTheVerdict : Prop :=
  ∀ (i : Instr) (s : State), i ∈ [Instr.write, .erase, .bulkErase] → s.reg.phase = .busyPoll →
    (s.st.verdict = .timeout → exec i s = .next (failed .timeout (failInfo i s) { s with st.verdict := .none })) ∧
    (s.st.verdict = .matched → i ≠ .bulkErase →
      exec i s = .next { s with st.verdict := .none, reg.phase := .advance }) ∧
    (s.st.verdict = .matched → i = .bulkErase → exec i s = .next (done { s with st.verdict := .none }))

/-- R425: the FRAME step of READ_STATUS: one RDSR, its value in DEV_SR, success; the value shows the busy bit and the latch. -/
def Obligations.ReadStatusCompletes : Prop :=
  ∀ (s s0 : State), s.cfg.Valid → s.reg.phase = .frame →
    (takeResult s = (.ok, s0) →
      ∃ v d, exec .readStatus s =
          .next (done { sent (regInFrame s.cfg.opcRdsr) .ok [v] s0 with
            env.draws := d
            out.busRx := [v]
            reg.devSr := v }) ∧
        (v &&& s.cfg.srWipMask = if s.dev.op ≠ .none then s.cfg.srWipMask else 0) ∧
        (v &&& s.cfg.srWelMask = if s.dev.wel = true then s.cfg.srWelMask else 0)) ∧
    (takeResult s = (.xfail, s0) →
      ∃ d, exec .readStatus s =
        .next (failed .transport 0 { sent (regInFrame s.cfg.opcRdsr) .xfail [] s0 with env.draws := d }))

/-! ## READ and ERASE_VERIFY -/

/-- R352: the CHECK step of READ once its checks pass. -/
def Obligations.ReadCheckLatchesOperands : Prop :=
  ∀ s : State, s.reg.phase = .check → s.reg.initState = .ready → operandFailure .read s = none →
    ∃ t, t = { s with st.cur := BitVec.ofNat 32 (offset s), st.ptr := s.reg.ptr, st.len := BitVec.ofNat 32 (length s) } ∧
      (length s = 0 → exec .read s = .next (done t)) ∧
      (length s ≠ 0 → exec .read s = .next { t with reg.phase := .frame })

/-- R353 and R379: the FRAME step of READ and of ERASE_VERIFY: the chip-select time, one QIOFR at the cursor, the DMA
started; a failure of either raises TRANSPORT with the cursor's logical address. -/
def Obligations.ReadFrameStartsTheTransfer : Prop :=
  ∀ (i : Instr) (s s0 s1 : State) (dst : DmaDst) (n : Nat), s.reg.phase = .frame →
    ((i = .read ∧ dst = .host s.st.ptr ∧ n = s.st.len.toNat) ∨
      (i = .eraseVerify ∧ dst = .scratch ∧ n = s.cfg.sectorSize)) →
    ∃ s' f, s' = { s with st.csht := if s.cfg.cshtToggle then s.cfg.cshtRead else s.st.csht } ∧
      f = quadInFrame s.cfg.opcQiofr (BitVec.ofNat 24 s.st.cur.toNat) (BitVec.ofNat 5 s.cfg.dummyCycles)
          (BitVec.ofNat 32 n) ∧
      (takeResult s' = (.xfail, s0) →
        ∃ d, exec i s = .next (failed .transport (failInfo i s) { sent f .xfail [] s0 with env.draws := d })) ∧
      (takeResult s' = (.ok, s0) → takeResult (sent f .ok [] s0) = (.ok, s1) →
        exec i s =
          .next
            { s1 with
              st.dma := .rx dst n (BitVec.ofNat 24 s.st.cur.toNat) (BitVec.ofNat 5 s.cfg.dummyCycles)
              reg.phase := .waitRx }) ∧
      (takeResult s' = (.ok, s0) → takeResult (sent f .ok [] s0) = (.xfail, s1) →
        ∃ d, exec i s = .next (failed .transport (failInfo i s) { s1 with env.draws := d }))

/-- R212: the wait steps consume their flag: READ completes, ERASE_VERIFY compares, WRITE starts its busy poll. -/
def Obligations.WaitStepsConsumeTheFlag : Prop :=
  ∀ s : State,
    (s.reg.phase = .waitRx → s.st.rc = true →
      exec .read s = .next (done { s with st.rc := false, st.csht := s.cfg.cshtDefault }) ∧
      exec .eraseVerify s =
        .next { s with st.rc := false, st.csht := s.cfg.cshtDefault, reg.phase := .compare }) ∧
    (s.reg.phase = .waitTx → s.st.tc = true →
      exec .write s =
        .next { polls s.cfg.srWipMask 0 s.cfg.tPp { s with st.tc := false } with reg.phase := .busyPoll })

/-- R378: the CHECK step of ERASE_VERIFY once its checks pass. -/
def Obligations.VerifyCheckSetsTheRange : Prop :=
  ∀ s : State, s.reg.phase = .check → s.reg.initState = .ready → operandFailure .eraseVerify s = none →
    exec .eraseVerify s =
      .next
        { s with
          st.cur := BitVec.ofNat 32 (s.reg.block.toNat * s.cfg.blockSize)
          st.stop := BitVec.ofNat 32 (s.reg.block.toNat * s.cfg.blockSize + s.cfg.blockSize)
          reg.phase := .frame }

/-- R380: the comparator: the least byte that is not the erased one fails the command with its logical address; a chunk
with none goes on. -/
def Obligations.VerifyComparesEveryByte : Prop :=
  ∀ s : State, s.reg.phase = .compare →
    (∀ i b, s.st.scratch[i]? = some b → b ≠ s.cfg.erasedByte →
      (∀ j c, j < i → s.st.scratch[j]? = some c → c = s.cfg.erasedByte) →
      exec .eraseVerify s =
        .next (failed .verifyMismatch (BitVec.ofNat 32 (s.cfg.bias + s.st.cur.toNat + i)) s)) ∧
    ((∀ b ∈ s.st.scratch, b = s.cfg.erasedByte) → exec .eraseVerify s = .next { s with reg.phase := .advance })

/-- R372 and R381: the ADVANCE steps of ERASE and ERASE_VERIFY: the next block or chunk, or success at the end. -/
def Obligations.EraseAndVerifyAdvance : Prop :=
  ∀ s : State, s.reg.phase = .advance →
    (s.st.bi + 1 = s.st.bn → exec .erase s = .next (done { s with st.bi := s.st.bi + 1 })) ∧
    (s.st.bi + 1 ≠ s.st.bn → exec .erase s = .next { s with st.bi := s.st.bi + 1, reg.phase := .welIssue }) ∧
    (s.st.cur + BitVec.ofNat 32 s.cfg.sectorSize = s.st.stop →
      exec .eraseVerify s = .next (done { s with st.cur := s.st.cur + BitVec.ofNat 32 s.cfg.sectorSize })) ∧
    (s.st.cur + BitVec.ofNat 32 s.cfg.sectorSize ≠ s.st.stop →
      exec .eraseVerify s =
        .next { s with st.cur := s.st.cur + BitVec.ofNat 32 s.cfg.sectorSize, reg.phase := .frame })

/-! ## WRITE -/

/-- R358: the CHECK step of WRITE once its checks pass: cursor, end, pointer and the first chunk. -/
def Obligations.WriteCheckFormsTheFirstChunk : Prop :=
  ∀ s : State, s.reg.phase = .check → s.reg.initState = .ready → operandFailure .write s = none →
    ∃ t, t = { s with st.cur := BitVec.ofNat 32 (offset s), st.stop := BitVec.ofNat 32 (offset s + length s),
                      st.ptr := s.reg.ptr } ∧
      (length s = 0 → exec .write s = .next (done t)) ∧
      (length s ≠ 0 →
        exec .write s =
          .next
            { t with
              st.chunk := BitVec.ofNat 32 (min (s.cfg.pageSize - offset s % s.cfg.pageSize) (length s))
              reg.phase := .welIssue })

/-- R360: the FRAME step of WRITE: one EQPP of the chunk at the cursor and the DMA started; a failure of either raises
TRANSPORT, after a device effect that is none or that of a first part of the chunk's host bytes (R204; log 18). -/
def Obligations.WriteFrameStartsTheTransfer : Prop :=
  ∀ (s s0 s1 : State), s.reg.phase = .frame →
    ∃ a f, a = BitVec.ofNat 24 s.st.cur.toNat ∧ f = quadOutFrame s.cfg.opcEqpp a s.st.chunk [] ∧
      (takeResult s = (.ok, s0) → takeResult (sent f .ok [] s0) = (.ok, s1) →
        exec .write s = .next { s1 with st.dma := .tx s.st.ptr s.st.chunk.toNat a, reg.phase := .waitTx }) ∧
      (takeResult s = (.xfail, s0) →
        ∃ d dv k, exec .write s =
            .next (failed .transport (failInfo .write s) { sent f .xfail [] s0 with env.draws := d, dev := dv }) ∧
          cutProgram s a s.st.ptr s.st.chunk.toNat k dv) ∧
      (takeResult s = (.ok, s0) → takeResult (sent f .ok [] s0) = (.xfail, s1) →
        ∃ d dv k, exec .write s =
            .next (failed .transport (failInfo .write s) { s1 with env.draws := d, dev := dv }) ∧
          cutProgram s a s.st.ptr s.st.chunk.toNat k dv)

/-- R364: the ADVANCE step of WRITE: cursor and pointer move by the chunk; at the end success, else the next chunk. -/
def Obligations.WriteAdvancesByTheChunk : Prop :=
  ∀ s : State, s.reg.phase = .advance →
    ∃ t, t = { s with st.cur := s.st.cur + s.st.chunk, st.ptr := s.st.ptr + s.st.chunk } ∧
      (t.st.cur = s.st.stop → exec .write s = .next (done t)) ∧
      (t.st.cur ≠ s.st.stop →
        exec .write s =
          .next
            { t with
              st.chunk := BitVec.ofNat 32 (min s.cfg.pageSize (s.st.stop.toNat - t.st.cur.toNat))
              reg.phase := .welIssue })

/-! ## ERASE and BULK_ERASE -/

/-- R369: the CHECK step of ERASE once its checks pass. -/
def Obligations.EraseCheckSetsTheBlocks : Prop :=
  ∀ s : State, s.reg.phase = .check → s.reg.initState = .ready → operandFailure .erase s = none →
    ∃ t, t = { s with st.bi := s.reg.block, st.bn := BitVec.ofNat 32 (s.reg.block.toNat + s.reg.count.toNat) } ∧
      (s.reg.count = 0 → exec .erase s = .next (done t)) ∧
      (s.reg.count ≠ 0 → exec .erase s = .next { t with reg.phase := .welIssue })

/-- R370, R371, R375: the FRAME step of ERASE and of BULK_ERASE: the instruction the block size picks (or BE) at the
block's offset, the device's erase started, and the busy poll under that instruction's budget; a failure raises TRANSPORT,
the erase started or not (R204). -/
def Obligations.EraseFrameStartsTheErase : Prop :=
  ∀ (s s0 : State), s.reg.phase = .frame →
    ∃ a sse se be, a = BitVec.ofNat 24 (s.st.bi.toNat * s.cfg.blockSize) ∧
    sse = DevOp.erase .sse (a.toNat - a.toNat % 4096) 4096 ∧ se = DevOp.erase .se (a.toNat - a.toNat % 65536) 65536 ∧
    be = DevOp.erase .be 0 s.cfg.capacity ∧
    (takeResult s = (.ok, s0) →
      (s.cfg.blockSize = 4096 →
        exec .erase s =
          .next
            { polls s.cfg.srWipMask 0 s.cfg.tSse (sent (eraseFrame s.cfg.opcSse a) .ok [] (starts sse s0)) with
              reg.phase := .busyPoll }) ∧
      (s.cfg.blockSize ≠ 4096 →
        exec .erase s =
          .next
            { polls s.cfg.srWipMask 0 s.cfg.tSe (sent (eraseFrame s.cfg.opcSe a) .ok [] (starts se s0)) with
              reg.phase := .busyPoll }) ∧
      exec .bulkErase s =
        .next
          { polls s.cfg.srWipMask 0 s.cfg.tBe (sent (bareFrame s.cfg.opcBe) .ok [] (starts be s0)) with
            reg.phase := .busyPoll }) ∧
    (takeResult s = (.xfail, s0) →
      (s.cfg.blockSize = 4096 →
        ∃ u d, u = { sent (eraseFrame s.cfg.opcSse a) .xfail [] s0 with env.draws := d } ∧
          (exec .erase s = .next (failed .transport s.st.bi u) ∨
            exec .erase s = .next (failed .transport s.st.bi (starts sse u)))) ∧
      (s.cfg.blockSize ≠ 4096 →
        ∃ u d, u = { sent (eraseFrame s.cfg.opcSe a) .xfail [] s0 with env.draws := d } ∧
          (exec .erase s = .next (failed .transport s.st.bi u) ∨
            exec .erase s = .next (failed .transport s.st.bi (starts se u)))) ∧
      ∃ u d, u = { sent (bareFrame s.cfg.opcBe) .xfail [] s0 with env.draws := d } ∧
        (exec .bulkErase s = .next (failed .transport 0 u) ∨
          exec .bulkErase s = .next (failed .transport 0 (starts be u))))

/-! ## The device -/

/-- R252: WREN sets the latch of an idle device; a busy one ignores it. -/
def Obligations.WrenSetsTheLatch : Prop :=
  ∀ s : State, (s.dev.op = .none → exec .wren s = .next { s with dev.wel := true }) ∧
    (s.dev.op ≠ .none → exec .wren s = .next s)

/-- R253: RDSR drives the busy bit, the latch, and six bits that are a draw, and changes nothing of the device. -/
def Obligations.RdsrDrivesTheStatus : Prop :=
  ∀ s : State, s.cfg.Valid →
    ∃ v d, exec .rdsr s = .next { s with env.draws := d, out.busRx := [v] } ∧
      (v &&& s.cfg.srWipMask = if s.dev.op ≠ .none then s.cfg.srWipMask else 0) ∧
      (v &&& s.cfg.srWelMask = if s.dev.wel = true then s.cfg.srWelMask else 0) ∧
      (v &&& ~~~(s.cfg.srWipMask ||| s.cfg.srWelMask) =
        (takeByte s).1 &&& ~~~(s.cfg.srWipMask ||| s.cfg.srWelMask))

/-- R254, R255, R251: RDVCR drives the VCR of an idle device, and any byte of a busy one; WRVCR writes it if idle and
latched, the latch then as WRVCR_CLEARS_WEL says or drawn, and is ignored otherwise. -/
def Obligations.VcrReadAndWritten : Prop :=
  ∀ (s : State) (v : Byte),
    (s.dev.op = .none → exec .rdvcr s = .next { s with out.busRx := [s.dev.vcr] }) ∧
    (s.dev.op ≠ .none → ∃ b d, exec .rdvcr s = .next { s with env.draws := d, out.busRx := [b] }) ∧
    (s.dev.op = .none → s.dev.wel = true →
      ∃ w d, exec (.wrvcr v) s = .next { s with env.draws := d, dev.vcr := v, dev.wel := w } ∧
        (∀ b, s.cfg.wrvcrClearsWel = some b → w = !b)) ∧
    (s.dev.op ≠ .none ∨ s.dev.wel = false → exec (.wrvcr v) s = .next s)

/-- R256: QIOFR of an idle device whose dummy count is the frame's drives the array's bytes in address order; else it
drives as many bytes of any value. It changes nothing of the device. -/
def Obligations.QiofrDrivesTheArray : Prop :=
  ∀ (s : State) (a : Off24) (k : BitVec 5) (n : Word),
    (s.dev.op = .none → (s.dev.vcr &&& s.cfg.vcrDcMask).toNat >>> s.cfg.vcrDcShift = k.toNat →
      ∃ bs, exec (.qiofr a k n) s = .next { s with out.busRx := bs } ∧ bs.length = n.toNat ∧
        ∀ i, i < n.toNat → bs[i]? = some (s.flashByte ((a.toNat + i) % s.cfg.capacity))) ∧
    (¬ (s.dev.op = .none ∧ (s.dev.vcr &&& s.cfg.vcrDcMask).toNat >>> s.cfg.vcrDcShift = k.toNat) →
      ∃ bs d, exec (.qiofr a k n) s = .next { s with env.draws := d, out.busRx := bs } ∧ bs.length = n.toNat)

/-- R257: EQPP of an idle, latched device starts a program of the page: each data byte at its place in the page latch,
wrapping within the page, a later byte over an earlier one, 0xFF elsewhere; else it is ignored. -/
def Obligations.EqppLatchesThePage : Prop :=
  ∀ (s : State) (a : Off24) (data : List Byte), 0 < s.cfg.pageSize →
    (s.dev.op = .none → s.dev.wel = true →
      ∃ latch, exec (.eqpp a data) s =
          .next { s with
            dev.op := .program (a.toNat - a.toNat % s.cfg.pageSize) latch
            dev.age := 0 } ∧
        latch.length = s.cfg.pageSize ∧
        (∀ i d, data[i]? = some d →
          (∀ j, i < j → j < data.length → (a.toNat + j) % s.cfg.pageSize ≠ (a.toNat + i) % s.cfg.pageSize) →
          latch[(a.toNat + i) % s.cfg.pageSize]? = some d) ∧
        (∀ j, j < s.cfg.pageSize → (∀ i, i < data.length → (a.toNat + i) % s.cfg.pageSize ≠ j) →
          latch[j]? = some 0xFF)) ∧
    (s.dev.op ≠ .none ∨ s.dev.wel = false → exec (.eqpp a data) s = .next s)

/-- R258 to R260: SSE, SE and BE of an idle, latched device start the erase of their region; else they are ignored. -/
def Obligations.ErasesStartTheirRegion : Prop :=
  ∀ (s : State) (a : Off24),
    (s.dev.op = .none → s.dev.wel = true →
      exec (.sse a) s =
        .next { s with dev.op := .erase .sse (a.toNat - a.toNat % 4096) 4096, dev.age := 0 } ∧
      exec (.se a) s =
        .next { s with dev.op := .erase .se (a.toNat - a.toNat % 65536) 65536, dev.age := 0 } ∧
      exec .be s = .next { s with dev.op := .erase .be 0 s.cfg.capacity, dev.age := 0 }) ∧
    (s.dev.op ≠ .none ∨ s.dev.wel = false →
      exec (.sse a) s = .next s ∧ exec (.se a) s = .next s ∧ exec .be s = .next s)

/-- R261, R262: the device's completion step: a program leaves the AND of old and latched bytes in its page, an erase 0xFF
in its region, every other byte of the array as it was; the latch and the busy bit clear. -/
def Obligations.DeviceCompletesAtomically : Prop :=
  ∀ (s : State) (rest : List Agent), MemoryInv s → s.env.agenda = .device :: rest → s.dev.op ≠ .none →
    ∃ m, step s = .next { s with
        env.agenda := rest
        dev.array := m
        dev.wel := false
        dev.op := .none } ∧
      (∀ base latch, s.dev.op = .program base latch → ∀ o,
        Memory.read flashDefault m o =
          if base ≤ o ∧ o < base + latch.length ∧ o < s.cfg.capacity then s.flashByte o &&& latch.getD (o - base) 0
          else s.flashByte o) ∧
      (∀ k base size, s.dev.op = .erase k base size → ∀ o,
        Memory.read flashDefault m o = if base ≤ o ∧ o < base + size then 0xFF else s.flashByte o)

/-! ## The transport's own steps -/

/-- R208: the DMA completion of a receive: host memory (or the scratch buffer) takes the bytes the device drives, the
receive flag is set, the transfer ends and its frame has its data; a range the platform does not admit has no
completion. -/
def Obligations.DmaReceiveCompletes : Prop :=
  ∀ (s : State) (rest : List Agent) (dst : DmaDst) (n : Nat) (a : Off24) (k : BitVec 5),
    MemoryInv s → s.env.agenda = .dma :: rest → s.env.inReset = false → s.st.dma = .rx dst n a k →
    (∀ p, dst = .host p → admits s.cfg p.toNat n = false → step s = .next (taken rest s)) ∧
    (∀ p, dst = .host p → admits s.cfg p.toNat n = true →
      ∃ t bs, step s = .next t ∧ t.out.busRx = bs ∧ bs.length = n ∧
        (s.dev.op = .none → vcrDummy s.cfg s.dev.vcr = k.toNat → bs = flashBytes s a.toNat n) ∧
        (∀ o, t.hostByte o = if p.toNat ≤ o ∧ o < p.toNat + n then bs.getD (o - p.toNat) 0 else s.hostByte o) ∧
        t.st = { s.st with rc := true, dma := .idle } ∧ t.out.busLog = fillRx bs s.out.busLog ∧ t.reg = s.reg ∧
        t.dev = s.dev ∧ t.cfg = s.cfg) ∧
    (dst = .scratch →
      ∃ t bs, step s = .next t ∧ t.out.busRx = bs ∧ bs.length = n ∧
        (s.dev.op = .none → vcrDummy s.cfg s.dev.vcr = k.toNat → bs = flashBytes s a.toNat n) ∧
        t.st = { s.st with rc := true, dma := .idle, scratch := bs ++ s.st.scratch.drop n } ∧
        t.out.busLog = fillRx bs s.out.busLog ∧ t.reg = s.reg ∧ t.dev = s.dev ∧ t.mem = s.mem ∧ t.cfg = s.cfg)

/-- R208, R120: the DMA completion of a transmit: the host's bytes, where the host changed one while the WRITE runs any of
the values it had (log 19), are the data of the EQPP, the transmit flag is set, the transfer ends and its frame has its
data; a range the platform does not admit has no completion. -/
def Obligations.DmaTransmitCompletes : Prop :=
  ∀ (s : State) (rest : List Agent) (p : Word) (n : Nat) (a : Off24),
    s.env.agenda = .dma :: rest → s.env.inReset = false → s.st.dma = .tx p n a →
    (admits s.cfg p.toNat n = false → step s = .next (taken rest s)) ∧
    (admits s.cfg p.toNat n = true →
      ∃ bytes d t, mayMove s p.toNat n bytes ∧ exec (.eqpp a bytes) { taken rest s with env.draws := d } = .next t ∧
        step s = .next { t with st.tc := true, st.dma := .idle, out.busLog := fillTx bytes s.out.busLog } ∧
        ((∀ c ∈ s.env.stale, c.1 < p.toNat ∨ p.toNat + n ≤ c.1) →
          bytes = Memory.readList hostDefault s.mem p.toNat n ∧ d = s.env.draws))

/-- R220, R221: the sample step of a running poll: DEV_SR takes the status byte; a match ends the poll with MATCH, tested
before the budget; else an elapsed budget ends it with TIMEOUT; else it goes on. -/
def Obligations.SampleStepVotes : Prop :=
  ∀ (s : State) (rest : List Agent), s.env.agenda = .sample :: rest → s.env.inReset = false → s.st.pollActive = true →
    ∃ sr d, sr = srByte s.cfg s.dev (takeByte (taken rest s)).1 ∧
      ∃ t, t = { s with
          env.agenda := rest
          env.draws := d
          out.busRx := [sr]
          out.busLog :=
            { cmd := s.out.commands, frame := regInFrame s.cfg.opcRdsr, result := .ok, rx := [sr] } :: s.out.busLog
          reg.devSr := sr } ∧
        (sr &&& s.st.pollMask = s.st.pollMatch →
          step s = .next { t with st.verdict := .matched, st.pollActive := false }) ∧
        (sr &&& s.st.pollMask ≠ s.st.pollMatch → s.st.pollBudget ≤ s.st.pollElapsed →
          step s = .next { t with st.verdict := .timeout, st.pollActive := false }) ∧
        (sr &&& s.st.pollMask ≠ s.st.pollMatch → ¬ s.st.pollBudget ≤ s.st.pollElapsed → step s = .next t)

/-- R222, R263: the tick step: a running poll's time, saturating, and a running operation's age; no tick passes a running
operation's maximum latency where latencies are bounded. On every fair run (log 3) a poll running in a state with the
control invariant ends, with a verdict unless reset is asserted first, and a running operation of the device ends. -/
def Obligations.TickAdvancesTime : Prop :=
  (∀ (s : State) (rest : List Agent), s.env.agenda = .tick :: rest →
    (s.cfg.devLatencyBounded = true → s.dev.op ≠ .none → tmax s.cfg s.dev.op ≤ s.dev.age.toNat →
      step s = .next (taken rest s)) ∧
    (s.cfg.devLatencyBounded = false ∨ s.dev.op = .none ∨ s.dev.age.toNat < tmax s.cfg s.dev.op →
      step s = .next
        { s with
          env.agenda := rest
          st.pollElapsed := if s.st.pollActive then counted s.st.pollElapsed else s.st.pollElapsed
          dev.age := if s.dev.op ≠ .none then s.dev.age + 1 else s.dev.age })) ∧
  ∀ (schedule : Nat → Agent) (r : Nat → State) (n : Nat), FairRun schedule r →
    (ControlInv (r n) → (r n).st.pollActive = true →
      ∃ m, n < m ∧ (∀ k, n ≤ k → k < m → (r k).st.pollActive = true) ∧ (r m).st.pollActive = false ∧
        ((r m).st.verdict ≠ .none ∨ (r m).env.inReset = true)) ∧
    ((r n).dev.op ≠ .none → ∃ m, n < m ∧ (r m).dev.op = .none)

/-- R500, R501, R80, R81: asserting reset puts every register and every hidden variable at its reset value, leaves the
array and the VCR, and while it is asserted no step of the block is taken. A transfer in flight is cut: a first part of its
bytes, admitted by the platform, has moved, and nothing else of host memory or of the device has changed (log 16). Until
and across its release the registers and the hidden variables stay as they are, and release changes nothing else. -/
def Obligations.ResetRestoresTheBlock : Prop :=
  ∀ (s : State) (rest : List Agent), s.env.agenda = .resetAssert :: rest → s.env.inReset = false →
    ∃ t scratch, step s = .next t ∧ t.cfg = s.cfg ∧ sameArray s t ∧ t.env.inReset = true ∧
      scratch.length = s.cfg.sectorSize ∧ (s.st.dma = .idle → t.mem = s.mem ∧ t.dev = s.dev) ∧
      (∀ n a k, s.st.dma = .rx .scratch n a k → t.mem = s.mem ∧ t.dev = s.dev) ∧
      (∀ p n a k, MemoryInv s → s.st.dma = .rx (.host p) n a k → t.dev = s.dev ∧
        ∃ bs m, bs.length = n ∧ m ≤ n ∧ (0 < m → admits s.cfg p.toNat m = true) ∧
          (s.dev.op = .none → vcrDummy s.cfg s.dev.vcr = k.toNat → bs = flashBytes s a.toNat n) ∧
          ∀ o, t.hostByte o = if p.toNat ≤ o ∧ o < p.toNat + m then bs.getD (o - p.toNat) 0 else s.hostByte o) ∧
      (∀ p n a, s.st.dma = .tx p n a → t.mem = s.mem ∧
        ∃ m, m ≤ n ∧ (0 < m → admits s.cfg p.toNat m = true) ∧ cutProgram s a p n m t.dev) ∧
      t.reg =
        { ie := false, haltOnErr := false, cmd := 0, addr := 0, ptr := 0, wcount := 0, block := 0, count := 0,
          ecode := 0, busy := false, done := false, err := false, ovr := false, initState := .uninit, errcode := .none,
          phase := .idle, errinfo := 0, errphase := .idle, syserrCode := 0, syserrCount := 0, devSr := 0,
          devVcr := 0 } ∧
      t.st =
        { op := 0, sub := .none, cur := 0, stop := 0, ptr := 0, len := 0, chunk := 0, bi := 0, bn := 0, vcrProg := 0,
          tc := false, rc := false, pollActive := false, pollMask := 0, pollMatch := 0, pollBudget := 0,
          pollElapsed := 0, verdict := .none, scratch := scratch, bus := .off, csht := s.cfg.cshtDefault,
          dma := .idle } ∧
      ∀ (u : State) (a : Agent) (more : List Agent), u.env.inReset = true → u.env.agenda = a :: more →
        (a ∈ [Agent.csm, .dma, .sample, .host] → step u = .next (taken more u)) ∧
        (a = .resetRelease → step u = .next { taken more u with env.inReset := false }) ∧
        (u.st.pollActive = false → ∀ v, step u = .next v →
          v.reg = u.reg ∧ v.st = u.st ∧ (a ≠ .resetRelease → v.env.inReset = true))

/-! ## Invariants -/

/-- Every step keeps both memories canonical and within their addresses. -/
def Obligations.StepKeepsMemoryCanonical : Prop := ∀ s s' : State, MemoryInv s → step s = .next s' → MemoryInv s'

/-- Every step keeps the control invariant: R457's BUSY, R61's flags, R206's one transfer, R217's polls, R215's chip-select
time, R43's lifecycle, R45's phases, R62's buffer. -/
def Obligations.StepKeepsControl : Prop := ∀ s s' : State, ControlInv s → step s = .next s' → ControlInv s'

/-- Every step keeps the split engine's invariant: no page program the block sends straddles a page (R365). -/
def Obligations.StepKeepsSplit : Prop :=
  ∀ s s' : State, s.cfg.Valid → SplitInv s → step s = .next s' → SplitInv s'

/-- Every step keeps the latch discipline: each program, erase and VCR write follows a WREN that the same command sent, with
status reads only between, the last of which showed the latch set, the MATCH of the latch poll (R302). -/
def Obligations.StepKeepsLatchDiscipline : Prop :=
  ∀ s s' : State, s.cfg.Valid → LatchInv s → step s = .next s' → LatchInv s'

/-- The reset state meets every invariant that a step keeps, under a valid configuration. -/
def Obligations.ResetMeetsTheInvariants : Prop :=
  State.reset.cfg.Valid ∧ MemoryInv State.reset ∧ ControlInv State.reset ∧ SplitInv State.reset ∧ LatchInv State.reset ∧
    SendsOnlyNine State.reset

/-- No step from a state that meets the control invariant faults. -/
def Obligations.NoStepFaults : Prop := ∀ s : State, ControlInv s → ¬ Faults s

/-- No step changes the parameters (R6), and the block sends only the nine instructions of R157 (R159). -/
def Obligations.StepKeepsConfigAndVocabulary : Prop :=
  ∀ s s' : State, step s = .next s' → s'.cfg = s.cfg ∧ (SendsOnlyNine s → SendsOnlyNine s')

/-! ## Whole commands -/

/-- INIT from CHECK, the agents stepping in the one order csm, csm, csm, csm, sample, csm, csm, csm, csm (log 3), with no
frame failing and the device idle: the VCR's dummy field is programmed, the other bits kept, and the block is READY (R421,
R305, R306). -/
def Obligations.InitMakesTheBlockReady : Prop :=
  ∀ (s : State) (rest : List Agent) (rs : List XResult), s.cfg.Valid →
    s.env.agenda = [Agent.csm, .csm, .csm, .csm, .sample, .csm, .csm, .csm, .csm] ++ rest → s.env.inReset = false →
    s.env.draws.results = List.replicate 5 .ok ++ rs → s.reg.phase = .check → s.reg.cmd = 1 → s.st.op = 1 →
    s.reg.initState = .uninit → s.dev.op = .none →
    ∃ t, Host.Core.run Sys2Proof.core 9 s = .next t ∧ t.reg.initState = .ready ∧ t.reg.done = true ∧
      t.reg.err = false ∧ t.reg.busy = false ∧ t.reg.phase = .idle ∧ t.reg.errcode = .none ∧ t.st.bus ≠ .off ∧
      t.dev.vcr &&& ~~~s.cfg.vcrDcMask = s.dev.vcr &&& ~~~s.cfg.vcrDcMask ∧
      vcrDummy s.cfg t.dev.vcr = s.cfg.dummyCycles ∧ t.reg.devVcr = t.dev.vcr ∧ t.dev.array = s.dev.array ∧
      t.mem = s.mem ∧ t.env.agenda = rest

/-- READ of at least one word from CHECK, the agents stepping in the one order csm, csm, dma, csm (log 3), with no frame
failing, an idle and configured device and an admitted buffer: the buffer holds the flash's bytes, every other byte of host
memory and the whole device are as before (R351 to R354, R107, R126). -/
def Obligations.ReadDeliversTheFlashBytes : Prop :=
  ∀ (s : State) (rest : List Agent) (rs : List XResult), s.cfg.Valid → MemoryInv s →
    s.env.agenda = [Agent.csm, .csm, .dma, .csm] ++ rest → s.env.inReset = false →
    s.env.draws.results = .ok :: .ok :: rs → s.reg.phase = .check → s.reg.cmd = 3 → s.st.op = 3 →
    s.reg.initState = .ready → operandFailure .read s = none → s.reg.wcount ≠ 0 → s.dev.op = .none →
    vcrDummy s.cfg s.dev.vcr = s.cfg.dummyCycles → admits s.cfg s.reg.ptr.toNat (length s) = true →
    ∃ t, Host.Core.run Sys2Proof.core 4 s = .next t ∧ t.reg.done = true ∧ t.reg.err = false ∧ t.reg.busy = false ∧
      t.reg.phase = .idle ∧ t.st.csht = s.cfg.cshtDefault ∧ t.st.rc = false ∧ t.st.dma = .idle ∧
      (∀ i, i < length s → t.hostByte (s.reg.ptr.toNat + i) = s.flashByte (offset s + i)) ∧
      (∀ a, a < s.reg.ptr.toNat ∨ s.reg.ptr.toNat + length s ≤ a → t.hostByte a = s.hostByte a) ∧
      t.dev = s.dev ∧ t.env.agenda = rest

/-- ERASE of one block from CHECK, the agents stepping in the one order csm, csm, sample, csm, csm, device, sample, csm, csm
(log 3), with no frame failing and the device idle: every byte of the block reads 0xFF, every other byte of the array is as
before, the latch has cleared itself (R368 to R372, R261, R262). -/
def Obligations.EraseLeavesTheBlockErased : Prop :=
  ∀ (s : State) (rest : List Agent) (rs : List XResult), s.cfg.Valid →
    s.env.agenda = [Agent.csm, .csm, .sample, .csm, .csm, .device, .sample, .csm, .csm] ++ rest →
    s.env.inReset = false → s.env.draws.results = .ok :: .ok :: rs → s.reg.phase = .check → s.reg.cmd = 5 →
    s.st.op = 5 → s.reg.initState = .ready → operandFailure .erase s = none → s.reg.count = 1 → s.dev.op = .none →
    ∃ t, Host.Core.run Sys2Proof.core 9 s = .next t ∧ t.reg.done = true ∧ t.reg.err = false ∧ t.reg.busy = false ∧
      t.reg.phase = .idle ∧
      (∀ o, s.reg.block.toNat * s.cfg.blockSize ≤ o → o < (s.reg.block.toNat + 1) * s.cfg.blockSize →
        t.flashByte o = 0xFF) ∧
      (∀ o, o < s.reg.block.toNat * s.cfg.blockSize ∨ (s.reg.block.toNat + 1) * s.cfg.blockSize ≤ o →
        t.flashByte o = s.flashByte o) ∧
      t.dev.wel = false ∧ t.dev.op = .none ∧ t.mem = s.mem ∧ t.env.agenda = rest

/-- WRITE of any length from CHECK, chunk after chunk, the agents stepping in the one order of `chunkTurns` (log 3), with
no frame failing, the device idle and the buffer admitted and left alone: each byte of the range is the AND of old and host
byte, every other byte of the array and all of host memory are as before; the number of chunks is the law's (R357 to R365,
R361, R257, R126). -/
def Obligations.WriteProgramsTheWholeRange : Prop :=
  ∀ (s : State) (rest : List Agent) (rs : List XResult) (k : Nat), s.cfg.Valid → MemoryInv s →
    k = chunkCount s.cfg.pageSize (offset s) (length s) →
    s.env.agenda = .csm :: ((List.replicate k chunkTurns).flatten ++ rest) → s.env.inReset = false →
    s.env.draws.results = List.replicate (3 * k) .ok ++ rs → s.reg.phase = .check → s.reg.cmd = 4 → s.st.op = 4 →
    s.reg.initState = .ready → operandFailure .write s = none → s.reg.wcount ≠ 0 → s.dev.op = .none →
    s.env.stale = [] → admits s.cfg s.reg.ptr.toNat (length s) = true →
    ∃ t, Host.Core.run Sys2Proof.core (1 + 10 * k) s = .next t ∧ t.reg.done = true ∧ t.reg.err = false ∧
      t.reg.busy = false ∧ t.reg.phase = .idle ∧
      (∀ i, i < length s →
        t.flashByte (offset s + i) = s.flashByte (offset s + i) &&& s.hostByte (s.reg.ptr.toNat + i)) ∧
      (∀ o, o < offset s ∨ offset s + length s ≤ o → t.flashByte o = s.flashByte o) ∧
      t.mem = s.mem ∧ t.env.agenda = rest

/-! ## The host's own memory -/

/-- R120: the host's accesses of its own memory. A store changes that byte alone and, while a WRITE runs, keeps the value
before it among those the DMA may move; a load returns the byte, or any byte from the buffer of a running READ, and changes
nothing of memory (log 19). -/
def Obligations.HostMemoryAccesses : Prop :=
  ∀ (s : State) (rest : List Agent) (p : List HostOp) (a : Word), MemoryInv s →
    (∀ b, hostNext (.store a b) p s rest →
      ∃ m, step s =
          .next { s with
            env.agenda := rest
            env.prog := p
            mem := m
            env.stale :=
              if s.reg.busy = true ∧ s.st.op = 4 then (a.toNat, s.hostByte a.toNat) :: s.env.stale else s.env.stale } ∧
        ∀ o, Memory.read hostDefault m o = if o = a.toNat then b else s.hostByte o) ∧
    (hostNext (.load a) p s rest →
      ∃ v d, step s =
          .next { s with env.agenda := rest, env.prog := p, env.draws := d, out.hostRd := BitVec.setWidth 32 v } ∧
        (¬ (s.reg.busy = true ∧ s.st.op = 3 ∧
            (s.reg.phase = .check → s.reg.ptr.toNat ≤ a.toNat ∧ a.toNat < s.reg.ptr.toNat + length s) ∧
            (s.reg.phase ≠ .check →
              s.st.ptr.toNat ≤ a.toNat ∧ a.toNat < s.st.ptr.toNat + s.st.len.toNat)) →
          v = s.hostByte a.toNat ∧ d = s.env.draws))
end

