-- ==== Sys2Proof/Laws/Config.lean ====
section
/-! SUPPORT. The parameters: EX1 meets every constraint; what the constraints say about masks, pages and chunks. -/

namespace Sys2Proof

theorem Cfg.ex1_valid : Cfg.ex1.Valid := by
  constructor
  case page_pow2 => exact ⟨8, by decide⟩
  case wip_single => exact ⟨0, by decide⟩
  case wel_single => exact ⟨1, by decide⟩
  case vcr_field => exact ⟨4, by decide⟩
  all_goals decide

variable {c : Cfg}

/-- A page is a whole number of words. -/
theorem Cfg.Valid.page_words (hv : c.Valid) : 4 ∣ c.pageSize := by
  obtain ⟨k, hk⟩ := hv.page_pow2
  have hp := hv.page_ge
  rw [hk] at hp ⊢
  have h2 : 2 ≤ k := by
    by_contra h
    have h01 : k = 0 ∨ k = 1 := by omega
    rcases h01 with rfl | rfl <;> simp at hp
  exact Nat.pow_dvd_pow 2 h2

/-- Pages tile the 24-bit offsets. -/
theorem Cfg.Valid.page_dvd_offsets (hv : c.Valid) : c.pageSize ∣ 2 ^ 24 := by
  refine dvd_trans hv.page_dvd ?_
  rcases hv.block_size with h | h <;> rw [h] <;> decide

/-- The busy bit and the latch are different bits of the status byte. -/
theorem Cfg.Valid.masks_disjoint (hv : c.Valid) : c.srWipMask &&& c.srWelMask = 0 := by
  obtain ⟨i, hi, ha⟩ := hv.wip_single
  obtain ⟨j, hj, hb⟩ := hv.wel_single
  have hne := hv.masks_distinct
  have ha' : c.srWipMask = BitVec.ofNat 8 (2 ^ i) := by
    apply BitVec.eq_of_toNat_eq; rw [ha]; interval_cases i <;> rfl
  have hb' : c.srWelMask = BitVec.ofNat 8 (2 ^ j) := by
    apply BitVec.eq_of_toNat_eq; rw [hb]; interval_cases j <;> rfl
  rw [ha', hb'] at hne ⊢
  interval_cases i <;> interval_cases j <;> first | rfl | exact absurd rfl hne

end Sys2Proof
end

