-- ==== Sys2Proof/Laws/Device.lean ====
section
/-! SUPPORT. What the device's operations can do, said once: the page latch, the bytes it drives, the bytes a transmit
moves. -/

namespace Sys2Proof.Machine

theorem length_fillLatch (page : Nat) (data l : List Byte) (o : Nat) :
    (fillLatch page l o data).length = l.length := by
  induction data generalizing l o with
  | nil => rfl
  | cons d ds ih => simp [fillLatch, ih]

/-- A place of the page that no data byte falls on keeps what it had. -/
theorem fillLatch_other (page : Nat) (data l : List Byte) (o j : Nat)
    (h : ∀ i, i < data.length → (o + i) % page ≠ j) : (fillLatch page l o data)[j]? = l[j]? := by
  induction data generalizing l o with
  | nil => rfl
  | cons d ds ih =>
    simp only [fillLatch]
    rw [ih]
    · exact List.getElem?_set_ne (h 0 (by simp))
    · intro i hi
      have := h (i + 1) (by simpa using hi)
      rwa [show o + 1 + i = o + (i + 1) by omega]

theorem flashBytes_get {s : State} {o n i : Nat} (h : i < n) :
    (flashBytes s o n)[i]? = some (s.flashByte ((o + i) % s.cfg.capacity)) := by
  simp [flashBytes, h]

/-- The byte moved from an address: the one there, or one the host changed there while the WRITE runs. -/
theorem txByte_shape (s : State) (a : Nat) :
    ∃ d, (txByte a s).2 = { s with env.draws := d } ∧
      ((txByte a s).1 = s.hostByte a ∨ (a, (txByte a s).1) ∈ s.env.stale) := by
  unfold txByte
  split
  · exact ⟨s.env.draws, rfl, .inl rfl⟩
  · rename_i c cs h
    have hc : ∃ d, (takeChoice s).2 = { s with env.draws := d } := by unfold takeChoice; split <;> exact ⟨_, rfl⟩
    obtain ⟨d, hd⟩ := hc
    refine ⟨d, hd, ?_⟩
    have hk : (takeChoice s).1 % (cs.length + 2) < (s.hostByte a :: (c :: cs).map (·.2)).length := by
      have := Nat.mod_lt (takeChoice s).1 (Nat.succ_pos (cs.length + 1))
      simpa using this
    simp only
    rw [List.getD_eq_getElem _ _ hk]
    rcases List.mem_cons.1 (List.getElem_mem hk) with e | e
    · exact .inl e
    · obtain ⟨x, hx, hxe⟩ := List.mem_map.1 e
      rw [← h, List.mem_filter, decide_eq_true_eq] at hx
      exact .inr (by rw [← hxe, ← hx.2]; exact hx.1)

/-- The bytes of a transmit, each the one at its address or one the host changed there while the WRITE runs. -/
theorem txBytes_shape (s : State) (a n : Nat) :
    ∃ d, (txBytes a n s).2 = { s with env.draws := d } ∧
      ∀ i b, (txBytes a n s).1[i]? = some b → b = s.hostByte (a + i) ∨ (a + i, b) ∈ s.env.stale := by
  induction n generalizing a s with
  | zero => exact ⟨s.env.draws, rfl, by simp [txBytes]⟩
  | succ n ih =>
    obtain ⟨d, h1, h2⟩ := txByte_shape s a
    obtain ⟨d', h3, h4⟩ := ih (txByte a s).2 (a + 1)
    refine ⟨d', ?_, ?_⟩
    · simp only [txBytes]; rw [h3, h1]
    · intro i b hb
      simp only [txBytes] at hb
      cases i with
      | zero => simp only [List.getElem?_cons_zero, Option.some.injEq] at hb; subst hb; exact h2
      | succ i =>
        have := h4 i b (by simpa using hb)
        rw [h1] at this
        rwa [show a + 1 + i = a + (i + 1) by omega] at this

/-- A buffer the host left alone is moved as it is. -/
theorem txBytes_clean (s : State) (a n : Nat) (h : ∀ c ∈ s.env.stale, c.1 < a ∨ a + n ≤ c.1) :
    txBytes a n s = (Memory.readList hostDefault s.mem a n, s) := by
  induction n generalizing a with
  | zero => rfl
  | succ n ih =>
    have h0 : s.env.stale.filter (fun c => c.1 = a) = [] := by
      rw [List.filter_eq_nil_iff]
      intro c hc
      have := h c hc
      simp; omega
    have h1 : txByte a s = (s.hostByte a, s) := by simp only [txByte, h0]
    simp only [txBytes, h1]
    rw [ih (a + 1) (fun c hc => by have := h c hc; omega)]
    simp [Memory.readList, List.range_succ_eq_map, State.hostByte, Function.comp_def]
    intro x hx; congr 1; omega

/-- A part of an admitted range is admitted. -/
theorem admits_sub {c : Cfg} {a n a' n' : Nat} (h : admits c a n = true) (h1 : a ≤ a') (h2 : a' + n' ≤ a + n) :
    admits c a' n' = true := by
  simp only [admits, Bool.and_eq_true, decide_eq_true_eq, List.any_eq_true] at h ⊢
  obtain ⟨h0, r, hr, h3⟩ := h
  exact ⟨by omega, r, hr, by omega⟩

/-- The first chunk of a request of whole words: not empty, within its page and the request, of whole words. -/
theorem firstChunk_bounds (page cur stop : Nat) (h4 : 4 ∣ page) (hp : 4 ≤ page) (hc : cur % 4 = 0) (hs : stop % 4 = 0)
    (hlt : cur < stop) :
    4 ≤ firstChunk page cur stop ∧ cur % page + firstChunk page cur stop ≤ page ∧
      cur + firstChunk page cur stop ≤ stop ∧ firstChunk page cur stop % 4 = 0 := by
  unfold firstChunk
  have hm : cur % page < page := Nat.mod_lt _ (by omega)
  have hm4 : (cur % page) % 4 = 0 := by rw [Nat.mod_mod_of_dvd _ h4]; exact hc
  have hp4 : page % 4 = 0 := Nat.mod_eq_zero_of_dvd h4
  omega

/-- Drawn bytes: as many as asked for, only the draws consumed. -/
theorem takeBytes_shape (n : Nat) (s : State) :
    ∃ d, (takeBytes n s).2 = { s with env.draws := d } ∧ (takeBytes n s).1.length = n := by
  induction n generalizing s with
  | zero => exact ⟨s.env.draws, rfl, rfl⟩
  | succ n ih =>
    have hb : ∃ d, (takeByte s).2 = { s with env.draws := d } := by unfold takeByte; split <;> exact ⟨_, rfl⟩
    obtain ⟨d, hd⟩ := hb
    obtain ⟨d', h1, h2⟩ := ih (takeByte s).2
    refine ⟨d', ?_, ?_⟩
    · simp only [takeBytes]; rw [h1, hd]
    · simp [takeBytes, h2]

/-- The latch after a WRVCR: any, or as the parameter fixes it. -/
theorem settleWel_shape (s : State) :
    ∃ w d, settleWel s = { s with env.draws := d, dev.wel := w } ∧ ∀ b, s.cfg.wrvcrClearsWel = some b → w = !b := by
  unfold settleWel
  split
  · rename_i b hb
    exact ⟨!b, s.env.draws, rfl, by intro b' h; rw [hb] at h; cases h; rfl⟩
  · rename_i hb
    unfold takeChoice
    split <;> exact ⟨_, _, rfl, by simp [hb]⟩

/-- A failed frame: no effect, or that of some first part. -/
theorem failedFrame_cases (part : Nat → State → State) (s : State) :
    ∃ d, failedFrame part s = { s with env.draws := d } ∨ ∃ k, failedFrame part s = part k { s with env.draws := d } := by
  have hc : ∃ d, (takeChoice s).2 = { s with env.draws := d } := by unfold takeChoice; split <;> exact ⟨_, rfl⟩
  obtain ⟨d, hd⟩ := hc
  refine ⟨d, ?_⟩
  unfold failedFrame
  simp only
  split
  · exact .inl hd
  · exact .inr ⟨_, by rw [hd]⟩

end Sys2Proof.Machine
end

