-- ==== Sys2Proof/Laws/State.lean ====
section
/-! SUPPORT. What each named operation leaves alone and what it sets: one simp lemma per part of the state, so that no
later proof unfolds a record update. -/

namespace Sys2Proof.Machine

variable (s : State)

/-! ## Phase, completion, failure, release -/

@[simp] theorem toPhase_cfg (p : Phase) : (toPhase p s).cfg = s.cfg := rfl
@[simp] theorem toPhase_st (p : Phase) : (toPhase p s).st = s.st := rfl
@[simp] theorem toPhase_dev (p : Phase) : (toPhase p s).dev = s.dev := rfl
@[simp] theorem toPhase_mem (p : Phase) : (toPhase p s).mem = s.mem := rfl
@[simp] theorem toPhase_env (p : Phase) : (toPhase p s).env = s.env := rfl
@[simp] theorem toPhase_out (p : Phase) : (toPhase p s).out = s.out := rfl
@[simp] theorem toPhase_reg_phase (p : Phase) : (toPhase p s).reg.phase = p := rfl
@[simp] theorem toPhase_reg_busy (p : Phase) : (toPhase p s).reg.busy = s.reg.busy := rfl
@[simp] theorem toPhase_reg_done (p : Phase) : (toPhase p s).reg.done = s.reg.done := rfl
@[simp] theorem toPhase_reg_err (p : Phase) : (toPhase p s).reg.err = s.reg.err := rfl
@[simp] theorem toPhase_reg_errcode (p : Phase) : (toPhase p s).reg.errcode = s.reg.errcode := rfl
@[simp] theorem toPhase_reg_initState (p : Phase) : (toPhase p s).reg.initState = s.reg.initState := rfl
@[simp] theorem toPhase_reg_cmd (p : Phase) : (toPhase p s).reg.cmd = s.reg.cmd := rfl
@[simp] theorem toPhase_reg_ovr (p : Phase) : (toPhase p s).reg.ovr = s.reg.ovr := rfl
@[simp] theorem toPhase_reg_haltOnErr (p : Phase) : (toPhase p s).reg.haltOnErr = s.reg.haltOnErr := rfl

@[simp] theorem hook_cfg (c : Word) : (hook c s).cfg = s.cfg := rfl
@[simp] theorem hook_st (c : Word) : (hook c s).st = s.st := rfl
@[simp] theorem hook_dev (c : Word) : (hook c s).dev = s.dev := rfl
@[simp] theorem hook_mem (c : Word) : (hook c s).mem = s.mem := rfl
@[simp] theorem hook_env (c : Word) : (hook c s).env = s.env := rfl
@[simp] theorem hook_out (c : Word) : (hook c s).out = s.out := rfl
@[simp] theorem hook_reg_syserrCode (c : Word) : (hook c s).reg.syserrCode = c := rfl
@[simp] theorem hook_reg_syserrCount (c : Word) : (hook c s).reg.syserrCount = satSucc s.reg.syserrCount := rfl
@[simp] theorem hook_reg_phase (c : Word) : (hook c s).reg.phase = s.reg.phase := rfl

@[simp] theorem finish_cfg : (finish s).cfg = s.cfg := rfl
@[simp] theorem finish_dev : (finish s).dev = s.dev := rfl
@[simp] theorem finish_mem : (finish s).mem = s.mem := rfl
@[simp] theorem finish_env : (finish s).env = s.env := rfl
@[simp] theorem finish_out : (finish s).out = s.out := rfl
@[simp] theorem finish_reg_phase : (finish s).reg.phase = .idle := rfl
@[simp] theorem finish_reg_busy : (finish s).reg.busy = false := rfl
@[simp] theorem finish_reg_done : (finish s).reg.done = true := rfl
@[simp] theorem finish_reg_err : (finish s).reg.err = false := rfl
@[simp] theorem finish_reg_errcode : (finish s).reg.errcode = .none := rfl
@[simp] theorem finish_st_sub : (finish s).st.sub = .none := rfl
@[simp] theorem finish_reg_initState : (finish s).reg.initState = s.reg.initState := rfl
@[simp] theorem finish_reg_cmd : (finish s).reg.cmd = s.reg.cmd := rfl
@[simp] theorem finish_st_op : (finish s).st.op = s.st.op := rfl
@[simp] theorem finish_st_csht : (finish s).st.csht = s.st.csht := rfl
@[simp] theorem finish_st_dma : (finish s).st.dma = s.st.dma := rfl
@[simp] theorem finish_st_tc : (finish s).st.tc = s.st.tc := rfl
@[simp] theorem finish_st_rc : (finish s).st.rc = s.st.rc := rfl
@[simp] theorem finish_st_bus : (finish s).st.bus = s.st.bus := rfl
@[simp] theorem finish_st_pollActive : (finish s).st.pollActive = s.st.pollActive := rfl
@[simp] theorem finish_st_verdict : (finish s).st.verdict = s.st.verdict := rfl
@[simp] theorem finish_st_scratch : (finish s).st.scratch = s.st.scratch := rfl

@[simp] theorem raise_cfg (e : ErrCode) (i : Word) : (raise e i s).cfg = s.cfg := rfl
@[simp] theorem raise_dev (e : ErrCode) (i : Word) : (raise e i s).dev = s.dev := rfl
@[simp] theorem raise_mem (e : ErrCode) (i : Word) : (raise e i s).mem = s.mem := rfl
@[simp] theorem raise_env (e : ErrCode) (i : Word) : (raise e i s).env = s.env := rfl
@[simp] theorem raise_out (e : ErrCode) (i : Word) : (raise e i s).out = s.out := rfl
@[simp] theorem raise_reg_phase (e : ErrCode) (i : Word) : (raise e i s).reg.phase = if s.reg.haltOnErr then .halted else .idle := rfl
@[simp] theorem raise_reg_busy (e : ErrCode) (i : Word) : (raise e i s).reg.busy = false := rfl
@[simp] theorem raise_reg_done (e : ErrCode) (i : Word) : (raise e i s).reg.done = true := rfl
@[simp] theorem raise_reg_err (e : ErrCode) (i : Word) : (raise e i s).reg.err = true := rfl
@[simp] theorem raise_reg_errcode (e : ErrCode) (i : Word) : (raise e i s).reg.errcode = e := rfl
@[simp] theorem raise_reg_errinfo (e : ErrCode) (i : Word) : (raise e i s).reg.errinfo = i := rfl
@[simp] theorem raise_reg_errphase (e : ErrCode) (i : Word) : (raise e i s).reg.errphase = s.reg.phase := rfl
@[simp] theorem raise_reg_syserrCode (e : ErrCode) (i : Word) : (raise e i s).reg.syserrCode = e.code.setWidth 32 := rfl
@[simp] theorem raise_reg_syserrCount (e : ErrCode) (i : Word) : (raise e i s).reg.syserrCount = satSucc s.reg.syserrCount := rfl
@[simp] theorem raise_reg_initState (e : ErrCode) (i : Word) : (raise e i s).reg.initState = if s.st.op = 1 ∧ s.reg.initState = .busReady then .failed else s.reg.initState := rfl
@[simp] theorem raise_st_csht (e : ErrCode) (i : Word) : (raise e i s).st.csht = s.cfg.cshtDefault := rfl
@[simp] theorem raise_st_pollActive (e : ErrCode) (i : Word) : (raise e i s).st.pollActive = false := rfl
@[simp] theorem raise_st_verdict (e : ErrCode) (i : Word) : (raise e i s).st.verdict = .none := rfl
@[simp] theorem raise_st_sub (e : ErrCode) (i : Word) : (raise e i s).st.sub = .none := rfl
@[simp] theorem raise_reg_cmd (e : ErrCode) (i : Word) : (raise e i s).reg.cmd = s.reg.cmd := rfl
@[simp] theorem raise_st_op (e : ErrCode) (i : Word) : (raise e i s).st.op = s.st.op := rfl
@[simp] theorem raise_st_dma (e : ErrCode) (i : Word) : (raise e i s).st.dma = s.st.dma := rfl
@[simp] theorem raise_st_tc (e : ErrCode) (i : Word) : (raise e i s).st.tc = s.st.tc := rfl
@[simp] theorem raise_st_rc (e : ErrCode) (i : Word) : (raise e i s).st.rc = s.st.rc := rfl
@[simp] theorem raise_st_bus (e : ErrCode) (i : Word) : (raise e i s).st.bus = s.st.bus := rfl
@[simp] theorem raise_st_scratch (e : ErrCode) (i : Word) : (raise e i s).st.scratch = s.st.scratch := rfl

@[simp] theorem release_cfg (v : Word) : (release v s).cfg = s.cfg := rfl
@[simp] theorem release_st (v : Word) : (release v s).st = s.st := rfl
@[simp] theorem release_dev (v : Word) : (release v s).dev = s.dev := rfl
@[simp] theorem release_mem (v : Word) : (release v s).mem = s.mem := rfl
@[simp] theorem release_env (v : Word) : (release v s).env = s.env := rfl
@[simp] theorem release_out (v : Word) : (release v s).out = s.out := rfl
@[simp] theorem acceptCmd_cfg (v : Word) : (acceptCmd v s).cfg = s.cfg := rfl
@[simp] theorem acceptCmd_dev (v : Word) : (acceptCmd v s).dev = s.dev := rfl
@[simp] theorem acceptCmd_mem (v : Word) : (acceptCmd v s).mem = s.mem := rfl
@[simp] theorem acceptCmd_busLog (v : Word) : (acceptCmd v s).out.busLog = s.out.busLog := rfl
@[simp] theorem acceptCmd_busRx (v : Word) : (acceptCmd v s).out.busRx = s.out.busRx := rfl
@[simp] theorem acceptCmd_hostRd (v : Word) : (acceptCmd v s).out.hostRd = s.out.hostRd := rfl
@[simp] theorem acceptCmd_commands (v : Word) : (acceptCmd v s).out.commands = s.out.commands + 1 := rfl
@[simp] theorem acceptCmd_reg_phase (v : Word) : (acceptCmd v s).reg.phase = .check := rfl
@[simp] theorem acceptCmd_reg_busy (v : Word) : (acceptCmd v s).reg.busy = true := rfl
@[simp] theorem acceptCmd_reg_done (v : Word) : (acceptCmd v s).reg.done = false := rfl
@[simp] theorem acceptCmd_reg_err (v : Word) : (acceptCmd v s).reg.err = false := rfl
@[simp] theorem acceptCmd_reg_errcode (v : Word) : (acceptCmd v s).reg.errcode = .none := rfl
@[simp] theorem acceptCmd_reg_cmd (v : Word) : (acceptCmd v s).reg.cmd = v := rfl
@[simp] theorem acceptCmd_st_op (v : Word) : (acceptCmd v s).st.op = cmdOp v := rfl
@[simp] theorem acceptCmd_st_sub (v : Word) : (acceptCmd v s).st.sub = .none := rfl
@[simp] theorem acceptCmd_st_dma (v : Word) : (acceptCmd v s).st.dma = s.st.dma := rfl
@[simp] theorem acceptCmd_st_csht (v : Word) : (acceptCmd v s).st.csht = s.st.csht := rfl
@[simp] theorem acceptCmd_reg_initState (v : Word) : (acceptCmd v s).reg.initState = s.reg.initState := rfl

/-! ## Polls, frames -/

@[simp] theorem startPoll_cfg (m t : Byte) (n : Nat) : (startPoll m t n s).cfg = s.cfg := rfl
@[simp] theorem startPoll_reg (m t : Byte) (n : Nat) : (startPoll m t n s).reg = s.reg := rfl
@[simp] theorem startPoll_dev (m t : Byte) (n : Nat) : (startPoll m t n s).dev = s.dev := rfl
@[simp] theorem startPoll_mem (m t : Byte) (n : Nat) : (startPoll m t n s).mem = s.mem := rfl
@[simp] theorem startPoll_env (m t : Byte) (n : Nat) : (startPoll m t n s).env = s.env := rfl
@[simp] theorem startPoll_out (m t : Byte) (n : Nat) : (startPoll m t n s).out = s.out := rfl
@[simp] theorem startPoll_st_pollActive (m t : Byte) (n : Nat) : (startPoll m t n s).st.pollActive = true := rfl
@[simp] theorem startPoll_st_verdict (m t : Byte) (n : Nat) : (startPoll m t n s).st.verdict = .none := rfl
@[simp] theorem startPoll_st_pollMask (m t : Byte) (n : Nat) : (startPoll m t n s).st.pollMask = m := rfl
@[simp] theorem startPoll_st_pollMatch (m t : Byte) (n : Nat) : (startPoll m t n s).st.pollMatch = t := rfl
@[simp] theorem startPoll_st_pollBudget (m t : Byte) (n : Nat) : (startPoll m t n s).st.pollBudget = w32 n := rfl
@[simp] theorem startPoll_st_pollElapsed (m t : Byte) (n : Nat) : (startPoll m t n s).st.pollElapsed = 0 := rfl
@[simp] theorem startPoll_st_op (m t : Byte) (n : Nat) : (startPoll m t n s).st.op = s.st.op := rfl
@[simp] theorem startPoll_st_dma (m t : Byte) (n : Nat) : (startPoll m t n s).st.dma = s.st.dma := rfl
@[simp] theorem startPoll_st_csht (m t : Byte) (n : Nat) : (startPoll m t n s).st.csht = s.st.csht := rfl
@[simp] theorem startPoll_st_tc (m t : Byte) (n : Nat) : (startPoll m t n s).st.tc = s.st.tc := rfl
@[simp] theorem startPoll_st_rc (m t : Byte) (n : Nat) : (startPoll m t n s).st.rc = s.st.rc := rfl
@[simp] theorem startPoll_st_bus (m t : Byte) (n : Nat) : (startPoll m t n s).st.bus = s.st.bus := rfl
@[simp] theorem startPoll_st_sub (m t : Byte) (n : Nat) : (startPoll m t n s).st.sub = s.st.sub := rfl
@[simp] theorem startPoll_st_scratch (m t : Byte) (n : Nat) : (startPoll m t n s).st.scratch = s.st.scratch := rfl
@[simp] theorem startPoll_st_cur (m t : Byte) (n : Nat) : (startPoll m t n s).st.cur = s.st.cur := rfl
@[simp] theorem startPoll_st_stop (m t : Byte) (n : Nat) : (startPoll m t n s).st.stop = s.st.stop := rfl
@[simp] theorem startPoll_st_chunk (m t : Byte) (n : Nat) : (startPoll m t n s).st.chunk = s.st.chunk := rfl
@[simp] theorem startPoll_st_ptr (m t : Byte) (n : Nat) : (startPoll m t n s).st.ptr = s.st.ptr := rfl
@[simp] theorem busyWait_cfg (n : Nat) : (busyWait n s).cfg = s.cfg := rfl
@[simp] theorem busyWait_dev (n : Nat) : (busyWait n s).dev = s.dev := rfl
@[simp] theorem busyWait_mem (n : Nat) : (busyWait n s).mem = s.mem := rfl
@[simp] theorem busyWait_env (n : Nat) : (busyWait n s).env = s.env := rfl
@[simp] theorem busyWait_out (n : Nat) : (busyWait n s).out = s.out := rfl
@[simp] theorem busyWait_reg_phase (n : Nat) : (busyWait n s).reg.phase = .busyPoll := rfl
@[simp] theorem logFrame_cfg (f : Frame) (r : XResult) (rx : List Byte) : (logFrame f r rx s).cfg = s.cfg := rfl
@[simp] theorem logFrame_reg (f : Frame) (r : XResult) (rx : List Byte) : (logFrame f r rx s).reg = s.reg := rfl
@[simp] theorem logFrame_st (f : Frame) (r : XResult) (rx : List Byte) : (logFrame f r rx s).st = s.st := rfl
@[simp] theorem logFrame_dev (f : Frame) (r : XResult) (rx : List Byte) : (logFrame f r rx s).dev = s.dev := rfl
@[simp] theorem logFrame_mem (f : Frame) (r : XResult) (rx : List Byte) : (logFrame f r rx s).mem = s.mem := rfl
@[simp] theorem logFrame_env (f : Frame) (r : XResult) (rx : List Byte) : (logFrame f r rx s).env = s.env := rfl
@[simp] theorem logFrame_out_busLog (f : Frame) (r : XResult) (rx : List Byte) :
    (logFrame f r rx s).out.busLog =
      { cmd := s.out.commands, frame := f, result := r, rx := rx } :: s.out.busLog := rfl
@[simp] theorem logFrame_out_busRx (f : Frame) (r : XResult) (rx : List Byte) :
    (logFrame f r rx s).out.busRx = s.out.busRx := rfl
@[simp] theorem logFrame_out_commands (f : Frame) (r : XResult) (rx : List Byte) :
    (logFrame f r rx s).out.commands = s.out.commands := rfl

/-! ## Draws -/

@[simp] theorem takeResult_cfg : (takeResult s).2.cfg = s.cfg := by unfold takeResult; split <;> rfl
@[simp] theorem takeResult_reg : (takeResult s).2.reg = s.reg := by unfold takeResult; split <;> rfl
@[simp] theorem takeResult_st : (takeResult s).2.st = s.st := by unfold takeResult; split <;> rfl
@[simp] theorem takeResult_dev : (takeResult s).2.dev = s.dev := by unfold takeResult; split <;> rfl
@[simp] theorem takeResult_mem : (takeResult s).2.mem = s.mem := by unfold takeResult; split <;> rfl
@[simp] theorem takeResult_out : (takeResult s).2.out = s.out := by unfold takeResult; split <;> rfl
@[simp] theorem takeResult_agenda : (takeResult s).2.env.agenda = s.env.agenda := by unfold takeResult; split <;> rfl
@[simp] theorem takeResult_prog : (takeResult s).2.env.prog = s.env.prog := by unfold takeResult; split <;> rfl
@[simp] theorem takeResult_foreign : (takeResult s).2.env.foreign = s.env.foreign := by unfold takeResult; split <;> rfl
@[simp] theorem takeResult_inReset : (takeResult s).2.env.inReset = s.env.inReset := by unfold takeResult; split <;> rfl
@[simp] theorem takeResult_stale : (takeResult s).2.env.stale = s.env.stale := by unfold takeResult; split <;> rfl
@[simp] theorem takeChoice_cfg : (takeChoice s).2.cfg = s.cfg := by unfold takeChoice; split <;> rfl
@[simp] theorem takeChoice_reg : (takeChoice s).2.reg = s.reg := by unfold takeChoice; split <;> rfl
@[simp] theorem takeChoice_st : (takeChoice s).2.st = s.st := by unfold takeChoice; split <;> rfl
@[simp] theorem takeChoice_dev : (takeChoice s).2.dev = s.dev := by unfold takeChoice; split <;> rfl
@[simp] theorem takeChoice_mem : (takeChoice s).2.mem = s.mem := by unfold takeChoice; split <;> rfl
@[simp] theorem takeChoice_out : (takeChoice s).2.out = s.out := by unfold takeChoice; split <;> rfl
@[simp] theorem takeChoice_agenda : (takeChoice s).2.env.agenda = s.env.agenda := by unfold takeChoice; split <;> rfl
@[simp] theorem takeChoice_prog : (takeChoice s).2.env.prog = s.env.prog := by unfold takeChoice; split <;> rfl
@[simp] theorem takeChoice_foreign : (takeChoice s).2.env.foreign = s.env.foreign := by unfold takeChoice; split <;> rfl
@[simp] theorem takeChoice_inReset : (takeChoice s).2.env.inReset = s.env.inReset := by unfold takeChoice; split <;> rfl
@[simp] theorem takeChoice_stale : (takeChoice s).2.env.stale = s.env.stale := by unfold takeChoice; split <;> rfl
@[simp] theorem takeByte_cfg : (takeByte s).2.cfg = s.cfg := by unfold takeByte; split <;> rfl
@[simp] theorem takeByte_reg : (takeByte s).2.reg = s.reg := by unfold takeByte; split <;> rfl
@[simp] theorem takeByte_st : (takeByte s).2.st = s.st := by unfold takeByte; split <;> rfl
@[simp] theorem takeByte_dev : (takeByte s).2.dev = s.dev := by unfold takeByte; split <;> rfl
@[simp] theorem takeByte_mem : (takeByte s).2.mem = s.mem := by unfold takeByte; split <;> rfl
@[simp] theorem takeByte_out : (takeByte s).2.out = s.out := by unfold takeByte; split <;> rfl
@[simp] theorem takeByte_agenda : (takeByte s).2.env.agenda = s.env.agenda := by unfold takeByte; split <;> rfl
@[simp] theorem takeByte_prog : (takeByte s).2.env.prog = s.env.prog := by unfold takeByte; split <;> rfl
@[simp] theorem takeByte_foreign : (takeByte s).2.env.foreign = s.env.foreign := by unfold takeByte; split <;> rfl
@[simp] theorem takeByte_inReset : (takeByte s).2.env.inReset = s.env.inReset := by unfold takeByte; split <;> rfl
@[simp] theorem takeByte_stale : (takeByte s).2.env.stale = s.env.stale := by unfold takeByte; split <;> rfl
@[simp] theorem takeAgent_cfg : (takeAgent s).2.cfg = s.cfg := by unfold takeAgent; split <;> rfl
@[simp] theorem takeAgent_reg : (takeAgent s).2.reg = s.reg := by unfold takeAgent; split <;> rfl
@[simp] theorem takeAgent_st : (takeAgent s).2.st = s.st := by unfold takeAgent; split <;> rfl
@[simp] theorem takeAgent_dev : (takeAgent s).2.dev = s.dev := by unfold takeAgent; split <;> rfl
@[simp] theorem takeAgent_mem : (takeAgent s).2.mem = s.mem := by unfold takeAgent; split <;> rfl
@[simp] theorem takeAgent_out : (takeAgent s).2.out = s.out := by unfold takeAgent; split <;> rfl

@[simp] theorem takeBytes_cfg (n : Nat) : (takeBytes n s).2.cfg = s.cfg := by
  induction n generalizing s with
  | zero => rfl
  | succ n ih => simp [takeBytes, ih]
@[simp] theorem takeBytes_reg (n : Nat) : (takeBytes n s).2.reg = s.reg := by
  induction n generalizing s with
  | zero => rfl
  | succ n ih => simp [takeBytes, ih]
@[simp] theorem takeBytes_st (n : Nat) : (takeBytes n s).2.st = s.st := by
  induction n generalizing s with
  | zero => rfl
  | succ n ih => simp [takeBytes, ih]
@[simp] theorem takeBytes_dev (n : Nat) : (takeBytes n s).2.dev = s.dev := by
  induction n generalizing s with
  | zero => rfl
  | succ n ih => simp [takeBytes, ih]
@[simp] theorem takeBytes_mem (n : Nat) : (takeBytes n s).2.mem = s.mem := by
  induction n generalizing s with
  | zero => rfl
  | succ n ih => simp [takeBytes, ih]
@[simp] theorem takeBytes_out (n : Nat) : (takeBytes n s).2.out = s.out := by
  induction n generalizing s with
  | zero => rfl
  | succ n ih => simp [takeBytes, ih]
@[simp] theorem takeBytes_inReset (n : Nat) : (takeBytes n s).2.env.inReset = s.env.inReset := by
  induction n generalizing s with
  | zero => rfl
  | succ n ih => simp [takeBytes, ih]

@[simp] theorem length_takeBytes (n : Nat) : (takeBytes n s).1.length = n := by
  induction n generalizing s with
  | zero => rfl
  | succ n ih => simp [takeBytes, ih]

/-! ## Device responses -/

@[simp] theorem respWren_cfg : (respWren s).cfg = s.cfg := by unfold respWren; split <;> simp
@[simp] theorem respWren_reg : (respWren s).reg = s.reg := by unfold respWren; split <;> simp
@[simp] theorem respWren_st : (respWren s).st = s.st := by unfold respWren; split <;> simp
@[simp] theorem respWren_mem : (respWren s).mem = s.mem := by unfold respWren; split <;> simp
@[simp] theorem respWren_busLog : (respWren s).out.busLog = s.out.busLog := by unfold respWren; split <;> simp
@[simp] theorem respWren_commands : (respWren s).out.commands = s.out.commands := by unfold respWren; split <;> simp
@[simp] theorem respWren_array : (respWren s).dev.array = s.dev.array := by unfold respWren; split <;> simp
@[simp] theorem respWren_inReset : (respWren s).env.inReset = s.env.inReset := by unfold respWren; split <;> simp
@[simp] theorem respRdsr_cfg : (respRdsr s).cfg = s.cfg := by simp [respRdsr]
@[simp] theorem respRdsr_reg : (respRdsr s).reg = s.reg := by simp [respRdsr]
@[simp] theorem respRdsr_st : (respRdsr s).st = s.st := by simp [respRdsr]
@[simp] theorem respRdsr_mem : (respRdsr s).mem = s.mem := by simp [respRdsr]
@[simp] theorem respRdsr_busLog : (respRdsr s).out.busLog = s.out.busLog := by simp [respRdsr]
@[simp] theorem respRdsr_commands : (respRdsr s).out.commands = s.out.commands := by simp [respRdsr]
@[simp] theorem respRdsr_array : (respRdsr s).dev.array = s.dev.array := by simp [respRdsr]
@[simp] theorem respRdsr_inReset : (respRdsr s).env.inReset = s.env.inReset := by simp [respRdsr]
@[simp] theorem respRdvcr_cfg : (respRdvcr s).cfg = s.cfg := by unfold respRdvcr; split <;> simp
@[simp] theorem respRdvcr_reg : (respRdvcr s).reg = s.reg := by unfold respRdvcr; split <;> simp
@[simp] theorem respRdvcr_st : (respRdvcr s).st = s.st := by unfold respRdvcr; split <;> simp
@[simp] theorem respRdvcr_mem : (respRdvcr s).mem = s.mem := by unfold respRdvcr; split <;> simp
@[simp] theorem respRdvcr_busLog : (respRdvcr s).out.busLog = s.out.busLog := by unfold respRdvcr; split <;> simp
@[simp] theorem respRdvcr_commands : (respRdvcr s).out.commands = s.out.commands := by unfold respRdvcr; split <;> simp
@[simp] theorem respRdvcr_array : (respRdvcr s).dev.array = s.dev.array := by unfold respRdvcr; split <;> simp
@[simp] theorem respRdvcr_inReset : (respRdvcr s).env.inReset = s.env.inReset := by unfold respRdvcr; split <;> simp
@[simp] theorem settleWel_cfg : (settleWel s).cfg = s.cfg := by unfold settleWel; split <;> simp
@[simp] theorem settleWel_reg : (settleWel s).reg = s.reg := by unfold settleWel; split <;> simp
@[simp] theorem settleWel_st : (settleWel s).st = s.st := by unfold settleWel; split <;> simp
@[simp] theorem settleWel_mem : (settleWel s).mem = s.mem := by unfold settleWel; split <;> simp
@[simp] theorem settleWel_busLog : (settleWel s).out.busLog = s.out.busLog := by unfold settleWel; split <;> simp
@[simp] theorem settleWel_commands : (settleWel s).out.commands = s.out.commands := by unfold settleWel; split <;> simp
@[simp] theorem settleWel_array : (settleWel s).dev.array = s.dev.array := by unfold settleWel; split <;> simp
@[simp] theorem settleWel_inReset : (settleWel s).env.inReset = s.env.inReset := by unfold settleWel; split <;> simp
@[simp] theorem respWrvcr_cfg (v : Byte) : (respWrvcr v s).cfg = s.cfg := by unfold respWrvcr; split <;> simp
@[simp] theorem respWrvcr_reg (v : Byte) : (respWrvcr v s).reg = s.reg := by unfold respWrvcr; split <;> simp
@[simp] theorem respWrvcr_st (v : Byte) : (respWrvcr v s).st = s.st := by unfold respWrvcr; split <;> simp
@[simp] theorem respWrvcr_mem (v : Byte) : (respWrvcr v s).mem = s.mem := by unfold respWrvcr; split <;> simp
@[simp] theorem respWrvcr_busLog (v : Byte) : (respWrvcr v s).out.busLog = s.out.busLog := by unfold respWrvcr; split <;> simp
@[simp] theorem respWrvcr_commands (v : Byte) : (respWrvcr v s).out.commands = s.out.commands := by unfold respWrvcr; split <;> simp
@[simp] theorem respWrvcr_array (v : Byte) : (respWrvcr v s).dev.array = s.dev.array := by unfold respWrvcr; split <;> simp
@[simp] theorem respWrvcr_inReset (v : Byte) : (respWrvcr v s).env.inReset = s.env.inReset := by unfold respWrvcr; split <;> simp
@[simp] theorem respWrvcrNoData_cfg : (respWrvcrNoData s).cfg = s.cfg := by unfold respWrvcrNoData; split <;> simp
@[simp] theorem respWrvcrNoData_reg : (respWrvcrNoData s).reg = s.reg := by unfold respWrvcrNoData; split <;> simp
@[simp] theorem respWrvcrNoData_st : (respWrvcrNoData s).st = s.st := by unfold respWrvcrNoData; split <;> simp
@[simp] theorem respWrvcrNoData_mem : (respWrvcrNoData s).mem = s.mem := by unfold respWrvcrNoData; split <;> simp
@[simp] theorem respWrvcrNoData_busLog : (respWrvcrNoData s).out.busLog = s.out.busLog := by unfold respWrvcrNoData; split <;> simp
@[simp] theorem respWrvcrNoData_commands : (respWrvcrNoData s).out.commands = s.out.commands := by unfold respWrvcrNoData; split <;> simp
@[simp] theorem respWrvcrNoData_array : (respWrvcrNoData s).dev.array = s.dev.array := by unfold respWrvcrNoData; split <;> simp
@[simp] theorem respWrvcrNoData_inReset : (respWrvcrNoData s).env.inReset = s.env.inReset := by unfold respWrvcrNoData; split <;> simp
@[simp] theorem respQiofr_cfg (a : Off24) (k : BitVec 5) (n : Nat) : (respQiofr a k n s).cfg = s.cfg := by unfold respQiofr; split <;> simp
@[simp] theorem respQiofr_reg (a : Off24) (k : BitVec 5) (n : Nat) : (respQiofr a k n s).reg = s.reg := by unfold respQiofr; split <;> simp
@[simp] theorem respQiofr_st (a : Off24) (k : BitVec 5) (n : Nat) : (respQiofr a k n s).st = s.st := by unfold respQiofr; split <;> simp
@[simp] theorem respQiofr_mem (a : Off24) (k : BitVec 5) (n : Nat) : (respQiofr a k n s).mem = s.mem := by unfold respQiofr; split <;> simp
@[simp] theorem respQiofr_busLog (a : Off24) (k : BitVec 5) (n : Nat) : (respQiofr a k n s).out.busLog = s.out.busLog := by unfold respQiofr; split <;> simp
@[simp] theorem respQiofr_commands (a : Off24) (k : BitVec 5) (n : Nat) : (respQiofr a k n s).out.commands = s.out.commands := by unfold respQiofr; split <;> simp
@[simp] theorem respQiofr_array (a : Off24) (k : BitVec 5) (n : Nat) : (respQiofr a k n s).dev.array = s.dev.array := by unfold respQiofr; split <;> simp
@[simp] theorem respQiofr_inReset (a : Off24) (k : BitVec 5) (n : Nat) : (respQiofr a k n s).env.inReset = s.env.inReset := by unfold respQiofr; split <;> simp
@[simp] theorem respEqpp_cfg (a : Off24) (l : List Byte) : (respEqpp a l s).cfg = s.cfg := by unfold respEqpp; split <;> simp
@[simp] theorem respEqpp_reg (a : Off24) (l : List Byte) : (respEqpp a l s).reg = s.reg := by unfold respEqpp; split <;> simp
@[simp] theorem respEqpp_st (a : Off24) (l : List Byte) : (respEqpp a l s).st = s.st := by unfold respEqpp; split <;> simp
@[simp] theorem respEqpp_mem (a : Off24) (l : List Byte) : (respEqpp a l s).mem = s.mem := by unfold respEqpp; split <;> simp
@[simp] theorem respEqpp_busLog (a : Off24) (l : List Byte) : (respEqpp a l s).out.busLog = s.out.busLog := by unfold respEqpp; split <;> simp
@[simp] theorem respEqpp_commands (a : Off24) (l : List Byte) : (respEqpp a l s).out.commands = s.out.commands := by unfold respEqpp; split <;> simp
@[simp] theorem respEqpp_array (a : Off24) (l : List Byte) : (respEqpp a l s).dev.array = s.dev.array := by unfold respEqpp; split <;> simp
@[simp] theorem respEqpp_inReset (a : Off24) (l : List Byte) : (respEqpp a l s).env.inReset = s.env.inReset := by unfold respEqpp; split <;> simp
@[simp] theorem respErase_cfg (k : EraseKind) (x n : Nat) : (respErase k x n s).cfg = s.cfg := by unfold respErase; split <;> simp
@[simp] theorem respErase_reg (k : EraseKind) (x n : Nat) : (respErase k x n s).reg = s.reg := by unfold respErase; split <;> simp
@[simp] theorem respErase_st (k : EraseKind) (x n : Nat) : (respErase k x n s).st = s.st := by unfold respErase; split <;> simp
@[simp] theorem respErase_mem (k : EraseKind) (x n : Nat) : (respErase k x n s).mem = s.mem := by unfold respErase; split <;> simp
@[simp] theorem respErase_busLog (k : EraseKind) (x n : Nat) : (respErase k x n s).out.busLog = s.out.busLog := by unfold respErase; split <;> simp
@[simp] theorem respErase_commands (k : EraseKind) (x n : Nat) : (respErase k x n s).out.commands = s.out.commands := by unfold respErase; split <;> simp
@[simp] theorem respErase_array (k : EraseKind) (x n : Nat) : (respErase k x n s).dev.array = s.dev.array := by unfold respErase; split <;> simp
@[simp] theorem respErase_inReset (k : EraseKind) (x n : Nat) : (respErase k x n s).env.inReset = s.env.inReset := by unfold respErase; split <;> simp
@[simp] theorem respSse_cfg (a : Off24) : (respSse a s).cfg = s.cfg := respErase_cfg ..
@[simp] theorem respSse_reg (a : Off24) : (respSse a s).reg = s.reg := respErase_reg ..
@[simp] theorem respSse_st (a : Off24) : (respSse a s).st = s.st := respErase_st ..
@[simp] theorem respSse_mem (a : Off24) : (respSse a s).mem = s.mem := respErase_mem ..
@[simp] theorem respSse_busLog (a : Off24) : (respSse a s).out.busLog = s.out.busLog := respErase_busLog ..
@[simp] theorem respSse_commands (a : Off24) : (respSse a s).out.commands = s.out.commands := respErase_commands ..
@[simp] theorem respSse_array (a : Off24) : (respSse a s).dev.array = s.dev.array := respErase_array ..
@[simp] theorem respSse_inReset (a : Off24) : (respSse a s).env.inReset = s.env.inReset := respErase_inReset ..
@[simp] theorem respSe_cfg (a : Off24) : (respSe a s).cfg = s.cfg := respErase_cfg ..
@[simp] theorem respSe_reg (a : Off24) : (respSe a s).reg = s.reg := respErase_reg ..
@[simp] theorem respSe_st (a : Off24) : (respSe a s).st = s.st := respErase_st ..
@[simp] theorem respSe_mem (a : Off24) : (respSe a s).mem = s.mem := respErase_mem ..
@[simp] theorem respSe_busLog (a : Off24) : (respSe a s).out.busLog = s.out.busLog := respErase_busLog ..
@[simp] theorem respSe_commands (a : Off24) : (respSe a s).out.commands = s.out.commands := respErase_commands ..
@[simp] theorem respSe_array (a : Off24) : (respSe a s).dev.array = s.dev.array := respErase_array ..
@[simp] theorem respSe_inReset (a : Off24) : (respSe a s).env.inReset = s.env.inReset := respErase_inReset ..
@[simp] theorem respBe_cfg : (respBe s).cfg = s.cfg := respErase_cfg ..
@[simp] theorem respBe_reg : (respBe s).reg = s.reg := respErase_reg ..
@[simp] theorem respBe_st : (respBe s).st = s.st := respErase_st ..
@[simp] theorem respBe_mem : (respBe s).mem = s.mem := respErase_mem ..
@[simp] theorem respBe_busLog : (respBe s).out.busLog = s.out.busLog := respErase_busLog ..
@[simp] theorem respBe_commands : (respBe s).out.commands = s.out.commands := respErase_commands ..
@[simp] theorem respBe_array : (respBe s).dev.array = s.dev.array := respErase_array ..
@[simp] theorem respBe_inReset : (respBe s).env.inReset = s.env.inReset := respErase_inReset ..

@[simp] theorem length_flashBytes (o n : Nat) : (flashBytes s o n).length = n := by simp [flashBytes]

@[simp] theorem length_respQiofr_busRx (a : Off24) (k : BitVec 5) (n : Nat) :
    (respQiofr a k n s).out.busRx.length = n := by
  unfold respQiofr
  split <;> simp

@[simp] theorem respQiofr_dev (a : Off24) (k : BitVec 5) (n : Nat) : (respQiofr a k n s).dev = s.dev := by
  unfold respQiofr
  split <;> simp

@[simp] theorem respRdsr_dev : (respRdsr s).dev = s.dev := by simp [respRdsr]

@[simp] theorem respRdvcr_dev : (respRdvcr s).dev = s.dev := by
  unfold respRdvcr
  split <;> simp

@[simp] theorem noEffect_eq (k : Nat) : noEffect k s = s := rfl

end Sys2Proof.Machine
end

