-- ==== Sys2Proof/Laws/Transport.lean ====
section
/-! SUPPORT. What the transport's operations can do, said once: a frame's issue, a DMA start, the bus set-up. -/

namespace Sys2Proof.Machine

/-- What a frame may touch: the device but for its array, the draws, the outputs; not the reset line. -/
structure BusOnly (s t : State) : Prop where
  cfg : t.cfg = s.cfg
  reg : t.reg = s.reg
  st : t.st = s.st
  mem : t.mem = s.mem
  array : t.dev.array = s.dev.array
  log : t.out.busLog = s.out.busLog
  commands : t.out.commands = s.out.commands
  inReset : t.env.inReset = s.env.inReset

theorem BusOnly.refl (s : State) : BusOnly s s := ⟨rfl, rfl, rfl, rfl, rfl, rfl, rfl, rfl⟩

theorem BusOnly.trans {s t u : State} (h : BusOnly s t) (k : BusOnly t u) : BusOnly s u :=
  ⟨k.cfg.trans h.cfg, k.reg.trans h.reg, k.st.trans h.st, k.mem.trans h.mem, k.array.trans h.array,
    k.log.trans h.log, k.commands.trans h.commands, k.inReset.trans h.inReset⟩

variable (s : State)

theorem takeResult_busOnly : BusOnly s (takeResult s).2 := by constructor <;> simp

theorem takeChoice_busOnly : BusOnly s (takeChoice s).2 := by constructor <;> simp

theorem respWren_busOnly : BusOnly s (respWren s) := by constructor <;> simp

theorem respRdsr_busOnly : BusOnly s (respRdsr s) := by constructor <;> simp

theorem respRdvcr_busOnly : BusOnly s (respRdvcr s) := by constructor <;> simp

theorem respWrvcr_busOnly (v : Byte) : BusOnly s (respWrvcr v s) := by constructor <;> simp

theorem respWrvcrNoData_busOnly : BusOnly s (respWrvcrNoData s) := by constructor <;> simp

theorem respQiofr_busOnly (a : Off24) (k : BitVec 5) (n : Nat) : BusOnly s (respQiofr a k n s) := by
  constructor <;> simp

theorem respEqpp_busOnly (a : Off24) (l : List Byte) : BusOnly s (respEqpp a l s) := by constructor <;> simp

theorem respErase_busOnly (k : EraseKind) (x n : Nat) : BusOnly s (respErase k x n s) := by constructor <;> simp

theorem txByte_busOnly (a : Nat) : BusOnly s (txByte a s).2 := by
  unfold txByte
  split
  · exact BusOnly.refl s
  · exact takeChoice_busOnly s

theorem txBytes_busOnly (a n : Nat) : BusOnly s (txBytes a n s).2 := by
  induction n generalizing a s with
  | zero => exact BusOnly.refl s
  | succ n ih => exact (txByte_busOnly s a).trans (ih _ _)

@[simp] theorem length_txBytes (a n : Nat) : (txBytes a n s).1.length = n := by
  induction n generalizing a s with
  | zero => rfl
  | succ n ih => simp [txBytes, ih]

theorem partEqpp_busOnly (a : Off24) (p : Word) (n k : Nat) : BusOnly s (partEqpp a p n k s) :=
  (txBytes_busOnly s _ _).trans (respEqpp_busOnly ..)

theorem partWrvcr_busOnly (v : Byte) (k : Nat) : BusOnly s (partWrvcr v k s) := by
  cases k
  · exact respWrvcrNoData_busOnly s
  · exact respWrvcr_busOnly s v

theorem failedFrame_busOnly {part : Nat → State → State} (h : ∀ k t, BusOnly t (part k t)) :
    BusOnly s (failedFrame part s) := by
  unfold failedFrame
  dsimp only
  split
  · exact takeChoice_busOnly s
  · exact (takeChoice_busOnly s).trans (h _ _)

/-! ## Issue -/

variable {s}

/-- A successful issue: the device acts on the frame, which is logged with what the device drove. -/
theorem issue_ok {f : Frame} {act : State → State} {part : Nat → State → State} {s0 : State}
    (h : takeResult s = (.ok, s0)) : issue f act part s = (.ok, logFrame f .ok (inlineRx f (act s0)) (act s0)) := by
  simp [issue, h]

/-- A failed issue: the frame is logged and its device effect is a draw. -/
theorem issue_xfail {f : Frame} {act : State → State} {part : Nat → State → State} {s0 : State}
    (h : takeResult s = (.xfail, s0)) :
    issue f act part s = (.xfail, failedFrame part (logFrame f .xfail [] s0)) := by
  simp [issue, h]

theorem startDma_ok {d : Dma} {part : Nat → State → State} {s0 : State} (h : takeResult s = (.ok, s0)) :
    startDma d part s = (.ok, { s0 with st.dma := d }) := by
  simp [startDma, h]

theorem startDma_xfail {d : Dma} {part : Nat → State → State} {s0 : State} (h : takeResult s = (.xfail, s0)) :
    startDma d part s = (.xfail, failedFrame part s0) := by
  simp [startDma, h]

theorem busInit_ok {s0 : State} (h : takeResult s = (.ok, s0)) :
    busInit s = (.ok, { s0 with st.bus := .on (busSetup s.cfg), st.csht := s.cfg.cshtDefault }) := by
  simp [busInit, h]

theorem busInit_xfail {s0 : State} (h : takeResult s = (.xfail, s0)) : busInit s = (.xfail, s0) := by
  simp [busInit, h]

@[simp] theorem orTransport_ok (i : Word) (t : State) (k : State → State) : orTransport i (.ok, t) k = k t := rfl

@[simp] theorem orTransport_xfail (i : Word) (t : State) (k : State → State) :
    orTransport i (.xfail, t) k = raise .transport i t := rfl

/-- What an issue can be: the frame joins the log under its result, and nothing but the bus side is touched. -/
structure Issued (f : Frame) (s : State) (r : XResult × State) : Prop where
  cfg : r.2.cfg = s.cfg
  reg : r.2.reg = s.reg
  st : r.2.st = s.st
  mem : r.2.mem = s.mem
  array : r.2.dev.array = s.dev.array
  log : ∃ rx, r.2.out.busLog = { cmd := s.out.commands, frame := f, result := r.1, rx := rx } :: s.out.busLog
  commands : r.2.out.commands = s.out.commands

theorem issue_issued {f : Frame} {act : State → State} {part : Nat → State → State} (ha : ∀ t, BusOnly t (act t))
    (hp : ∀ k t, BusOnly t (part k t)) (s : State) : Issued f s (issue f act part s) := by
  rcases h : takeResult s with ⟨r, s0⟩
  have h0 : BusOnly s s0 := by have := takeResult_busOnly s; rwa [h] at this
  cases r with
  | ok =>
    have h1 := h0.trans (ha s0)
    rw [issue_ok h]
    exact ⟨h1.cfg, h1.reg, h1.st, h1.mem, h1.array, ⟨inlineRx f (act s0), by simp only [logFrame_out_busLog, h1.log, h1.commands]⟩,
      h1.commands⟩
  | xfail =>
    have h1 := failedFrame_busOnly (logFrame f .xfail [] s0) hp
    rw [issue_xfail h]
    exact ⟨h1.cfg.trans h0.cfg, h1.reg.trans h0.reg, h1.st.trans h0.st, h1.mem.trans h0.mem, h1.array.trans h0.array,
      ⟨[], h1.log.trans (by simp only [logFrame_out_busLog, h0.log, h0.commands])⟩, h1.commands.trans h0.commands⟩

theorem issueWren_issued (s : State) : Issued (bareFrame s.cfg.opcWren) s (issueWren s) :=
  issue_issued respWren_busOnly (fun _ => respWren_busOnly) s

theorem issueRdsr_issued (s : State) : Issued (regInFrame s.cfg.opcRdsr) s (issueRdsr s) :=
  issue_issued respRdsr_busOnly (fun _ => BusOnly.refl) s

theorem issueRdvcr_issued (s : State) : Issued (regInFrame s.cfg.opcRdvcr) s (issueRdvcr s) :=
  issue_issued respRdvcr_busOnly (fun _ => BusOnly.refl) s

theorem issueWrvcr_issued (v : Byte) (s : State) : Issued (regOutFrame s.cfg.opcWrvcr v) s (issueWrvcr v s) :=
  issue_issued (fun t => respWrvcr_busOnly t v) (fun k t => partWrvcr_busOnly t v k) s

theorem issueSse_issued (a : Off24) (s : State) : Issued (eraseFrame s.cfg.opcSse a) s (issueSse a s) :=
  issue_issued (fun t => respErase_busOnly t ..) (fun _ t => respErase_busOnly t ..) s

theorem issueSe_issued (a : Off24) (s : State) : Issued (eraseFrame s.cfg.opcSe a) s (issueSe a s) :=
  issue_issued (fun t => respErase_busOnly t ..) (fun _ t => respErase_busOnly t ..) s

theorem issueBe_issued (s : State) : Issued (bareFrame s.cfg.opcBe) s (issueBe s) :=
  issue_issued (fun t => respErase_busOnly t ..) (fun _ t => respErase_busOnly t ..) s

theorem issueQiofr_issued (a : Off24) (n : Nat) (s : State) :
    Issued (quadInFrame s.cfg.opcQiofr a (readDummy s.cfg) (w32 n)) s (issueQiofr a n s) :=
  issue_issued BusOnly.refl (fun _ => BusOnly.refl) s

theorem issueEqpp_issued (a : Off24) (p : Word) (n : Nat) (s : State) :
    Issued (quadOutFrame s.cfg.opcEqpp a (w32 n) []) s (issueEqpp a p n s) :=
  issue_issued BusOnly.refl (fun k t => partEqpp_busOnly t a p n k) s

/-- What a DMA start can be: the transfer is in flight, or nothing of the block has changed. -/
theorem startDma_cases {d : Dma} {part : Nat → State → State} (hp : ∀ k t, BusOnly t (part k t)) (s : State) :
    (∃ s0, BusOnly s s0 ∧ startDma d part s = (.ok, { s0 with st.dma := d })) ∨
      ∃ s0, BusOnly s s0 ∧ startDma d part s = (.xfail, s0) := by
  rcases h : takeResult s with ⟨r, s0⟩
  have h0 : BusOnly s s0 := by have := takeResult_busOnly s; rwa [h] at this
  cases r with
  | ok => exact .inl ⟨s0, h0, startDma_ok h⟩
  | xfail => exact .inr ⟨_, h0.trans (failedFrame_busOnly _ hp), startDma_xfail h⟩

/-! ## The sample step -/

/-- The sample step: nothing without a poll; else the status read is logged with the byte the device drove, and the voter
decides on that byte (R220). -/
theorem sampleStep_of_active (h : s.st.pollActive = true) :
    ∃ v d t, v = srByte s.cfg s.dev (takeByte s).1 ∧
      t = { s with
        env.draws := d
        out.busRx := [v]
        out.busLog :=
          { cmd := s.out.commands, frame := regInFrame s.cfg.opcRdsr, result := .ok, rx := [v] } :: s.out.busLog
        reg.devSr := v } ∧
      sampleStep s =
        match voter s.st.pollMask s.st.pollMatch s.st.pollBudget s.st.pollElapsed v with
        | .none => t
        | .matched => { t with st.verdict := .matched, st.pollActive := false }
        | .timeout => { t with st.verdict := .timeout, st.pollActive := false } := by
  obtain ⟨d, hd⟩ : ∃ d, (takeByte s).2 = { s with env.draws := d } := by unfold takeByte; split <;> exact ⟨_, rfl⟩
  refine ⟨_, d, _, rfl, rfl, ?_⟩
  simp only [sampleStep, h, if_true, respRdsr, hd]
  rfl

theorem sampleStep_of_not_active (h : s.st.pollActive = false) : sampleStep s = s := by simp [sampleStep, h]

end Sys2Proof.Machine
end

