-- ==== Sys2Proof/Laws/Agents.lean ====
section
/-! SUPPORT. What a cut transfer and a completed data phase can do, said once. -/

namespace Sys2Proof.Machine

/-- What a QIOFR drives: as many bytes as asked for, the array's where the device is idle and the dummy counts agree. -/
theorem respQiofr_shape (a : Off24) (k : BitVec 5) (n : Nat) (s : State) :
    ∃ bs d, respQiofr a k n s = { s with env.draws := d, out.busRx := bs } ∧ bs.length = n ∧
      (s.dev.op = .none → vcrDummy s.cfg s.dev.vcr = k.toNat → bs = flashBytes s a.toNat n) := by
  by_cases h : s.dev.op = .none ∧ vcrDummy s.cfg s.dev.vcr = k.toNat
  · exact ⟨flashBytes s a.toNat n, s.env.draws, by simp [respQiofr, h], by simp [flashBytes], fun _ _ => rfl⟩
  · obtain ⟨d, h1, h2⟩ := takeBytes_shape n s
    refine ⟨(takeBytes n s).1, d, ?_, h2, fun a b => absurd ⟨a, b⟩ h⟩
    rw [respQiofr, if_neg h]
    simp only
    rw [h1]

/-- What an EQPP of host bytes cut after `k` of them can do: nothing, or start the program of those first bytes. -/
theorem partEqpp_shape (a : Off24) (p : Word) (n k : Nat) (s : State) :
    ∃ (bytes : List Byte) (d : Draws) (dv : Device),
      partEqpp a p n k s = { s with env.draws := d, dev := dv } ∧ bytes.length = n ∧
      (∀ i b, bytes[i]? = some b → b = s.hostByte (p.toNat + i) ∨ (p.toNat + i, b) ∈ s.env.stale) ∧
      dv = if s.dev.op = .none ∧ s.dev.wel = true then
          { s.dev with
            op := .program (a.toNat - a.toNat % s.cfg.pageSize)
              (fillLatch s.cfg.pageSize (List.replicate s.cfg.pageSize 0xFF) a.toNat (bytes.take k))
            age := 0 }
        else s.dev := by
  obtain ⟨d, h1, h2⟩ := txBytes_shape s p.toNat n
  refine ⟨(txBytes p.toNat n s).1, d, _, ?_, length_txBytes s _ _, h2, rfl⟩
  simp only [partEqpp, h1, respEqpp]
  by_cases h : s.dev.op = .none ∧ s.dev.wel = true
  · rw [if_pos h, if_pos h]
  · rw [if_neg h, if_neg h]

theorem cutLength_le (c : Cfg) (a n k : Nat) : cutLength c a n k ≤ n := by unfold cutLength; split <;> omega

/-- Where a part moves the platform admits it. -/
theorem admits_cutLength {c : Cfg} {a n k : Nat} (h : 0 < cutLength c a n k) :
    admits c a (cutLength c a n k) = true := by
  unfold cutLength at h ⊢
  split
  · assumption
  · rename_i hn; rw [if_neg hn] at h; omega

theorem cutTransfer_idle {s : State} (h : s.st.dma = .idle) : cutTransfer s = s := by simp [cutTransfer, h]

theorem cutTransfer_scratch {s : State} {n : Nat} {a : Off24} {k : BitVec 5} (h : s.st.dma = .rx .scratch n a k) :
    cutTransfer s = s := by simp [cutTransfer, h]

/-- A cut receive: an admitted first part of what the device drives is in host memory. -/
theorem cutTransfer_rx {s : State} {p : Word} {n : Nat} {a : Off24} {k : BitVec 5}
    (h : s.st.dma = .rx (.host p) n a k) :
    ∃ bs m d o, cutTransfer s = { s with
        env.draws := d
        out.busRx := o
        mem := Memory.writeList hostDefault s.mem p.toNat (bs.take m) } ∧
      bs.length = n ∧ m ≤ n ∧ (0 < m → admits s.cfg p.toNat m = true) ∧
      (s.dev.op = .none → vcrDummy s.cfg s.dev.vcr = k.toNat → bs = flashBytes s a.toNat n) := by
  obtain ⟨bs, d, q, hl, hb⟩ := respQiofr_shape a k n s
  have hc : ∃ d, (takeChoice (respQiofr a k n s)).2 = { respQiofr a k n s with env.draws := d } := by
    unfold takeChoice; split <;> exact ⟨_, rfl⟩
  obtain ⟨d', q'⟩ := hc
  refine ⟨bs, cutLength s.cfg p.toNat n (takeChoice (respQiofr a k n s)).1, d', bs, ?_, hl, cutLength_le ..,
    admits_cutLength, hb⟩
  simp only [cutTransfer, h, deposit]
  rw [q', q]

/-- A cut transmit: the device as it was, or programming an admitted first part of the host's bytes. -/
theorem cutTransfer_tx {s : State} {p : Word} {n : Nat} {a : Off24} (h : s.st.dma = .tx p n a) :
    (∃ d, cutTransfer s = { s with env.draws := d }) ∨
      ∃ m d, m ≤ n ∧ (0 < m → admits s.cfg p.toNat m = true) ∧
        cutTransfer s = partEqpp a p n m { s with env.draws := d } := by
  obtain ⟨d, q⟩ := failedFrame_cases (fun k => partEqpp a p n (cutLength s.cfg p.toNat n k)) s
  simp only [cutTransfer, h]
  rcases q with q | ⟨k, q⟩
  · exact .inl ⟨d, q⟩
  · exact .inr ⟨_, d, cutLength_le .., admits_cutLength, q⟩

/-! ## The open frame's data -/

/-- What filling the open frame's data can do: only the newest frame's data bytes change. -/
theorem fillRx_cases (bytes : List Byte) (log : List BusItem) :
    fillRx bytes log = log ∨
      ∃ it rest, log = it :: rest ∧ fillRx bytes log = { it with rx := bytes } :: rest := by
  cases log
  · exact .inl rfl
  · exact .inr ⟨_, _, rfl, rfl⟩

theorem fillTx_cases (bytes : List Byte) (log : List BusItem) :
    fillTx bytes log = log ∨
      ∃ it rest, log = it :: rest ∧ fillTx bytes log = { it with frame.payload := bytes } :: rest := by
  cases log
  · exact .inl rfl
  · exact .inr ⟨_, _, rfl, rfl⟩

end Sys2Proof.Machine
end

