-- ==== Sys2Proof/Laws/Decode.lean ====
section
/-! SUPPORT. The frame on the wires, said once. -/

namespace Sys2Proof

/-- The clocks of a frame are those of its phases, one after another, once its data phase has its bytes (R156). -/
theorem sum_clocks_phases {f : Frame} {rx : List Byte} (h : (f.dataBytes rx).length = f.nbytes.toNat) :
    ((f.phases rx).map WirePhase.clocks).sum = f.clocks := by
  have hd : ((if f.dummy = 0 then [] else [WirePhase.dummy f.dummy.toNat]).map WirePhase.clocks).sum = f.dummy.toNat := by
    split
    · rename_i h0; simp [h0]
    · simp [WirePhase.clocks]
  simp only [Frame.phases, Frame.clocks, List.map_append, List.sum_append, hd]
  cases f.amode <;> cases f.dmode <;> simp [h, WirePhase.clocks, Lines.clocks, Frame.addrBytes]

end Sys2Proof
end

