-- ==== Sys2Proof/Laws/Memory.lean ====
section
/-! SUPPORT. The laws of memory: a read after a write, and that every memory operation keeps the canonical form and the
range of addresses. -/

namespace Sys2Proof.Machine

variable {d b : Byte} {m : Memory} {a o n : Nat}

theorem Memory.read_nil (d : Byte) (a : Nat) : Memory.read d [] a = d := rfl

theorem Memory.read_of_forall_lt (h : ∀ c ∈ m, a < c.1) : Memory.read d m a = d := by
  induction m with
  | nil => rfl
  | cons c t ih =>
    have hc := h c (by simp)
    simp only [Memory.read]
    rw [if_neg (by omega)]
    exact ih fun x hx => h x (by simp [hx])

theorem Memory.mem_write {c : Host.Cell} (h : c ∈ Memory.write d m a b) : c ∈ m ∨ (c = (a, b) ∧ b ≠ d) := by
  induction m with
  | nil =>
    by_cases hb : b = d <;> simp_all [Memory.write]
  | cons e t ih =>
    obtain ⟨k, v⟩ := e
    simp only [Memory.write] at h
    split at h
    · split at h
      · exact .inl h
      · rcases List.mem_cons.1 h with h | h
        · exact .inr ⟨h, ‹_›⟩
        · exact .inl h
    · split at h
      · split at h
        · exact .inl (List.mem_cons_of_mem _ h)
        · rcases List.mem_cons.1 h with h | h
          · exact .inr ⟨h, ‹_›⟩
          · exact .inl (List.mem_cons_of_mem _ h)
      · rcases List.mem_cons.1 h with h | h
        · exact .inl (by simp [h])
        · rcases ih h with h | h
          · exact .inl (List.mem_cons_of_mem _ h)
          · exact .inr h

theorem Memory.wf_write (h : Memory.wf d m) : Memory.wf d (Memory.write d m a b) := by
  refine ⟨?_, fun c hc => ?_⟩
  · have hp := h.1
    clear h
    induction m with
    | nil => by_cases hb : b = d <;> simp [Memory.write, hb]
    | cons e t ih =>
      obtain ⟨k, v⟩ := e
      rw [List.pairwise_cons] at hp
      simp only [Memory.write]
      split
      · split
        · exact List.pairwise_cons.2 hp
        · refine List.pairwise_cons.2 ⟨fun c hc => ?_, List.pairwise_cons.2 hp⟩
          rcases List.mem_cons.1 hc with rfl | hc
          · assumption
          · have := hp.1 c hc
            simp only at this ⊢
            omega
      · split
        · split
          · exact hp.2
          · refine List.pairwise_cons.2 ⟨fun c hc => ?_, hp.2⟩
            have := hp.1 c hc
            simp only at this ⊢
            omega
        · refine List.pairwise_cons.2 ⟨fun c hc => ?_, ih hp.2⟩
          rcases Memory.mem_write hc with hc | ⟨rfl, -⟩
          · exact hp.1 c hc
          · simp only
            omega
  · rcases Memory.mem_write hc with hc | ⟨rfl, hb⟩
    · exact h.2 c hc
    · exact hb

theorem Memory.below_write (h : Memory.below n m) (ha : a < n) : Memory.below n (Memory.write d m a b) := by
  intro c hc
  rcases Memory.mem_write hc with hc | ⟨rfl, -⟩
  · exact h c hc
  · exact ha

theorem Memory.read_write (h : m.Pairwise fun x y => x.1 < y.1) (o : Nat) :
    Memory.read d (Memory.write d m a b) o = if o = a then b else Memory.read d m o := by
  induction m with
  | nil =>
    by_cases hb : b = d
    · by_cases ho : o = a <;> simp [Memory.write, Memory.read, hb]
    · by_cases ho : o = a
      · simp [Memory.write, Memory.read, hb, ho]
      · have : ¬ a = o := fun e => ho e.symm
        simp [Memory.write, Memory.read, hb, ho, this]
  | cons e t ih =>
    obtain ⟨k, v⟩ := e
    rw [List.pairwise_cons] at h
    have hkt : ∀ c ∈ t, k < c.1 := fun c hc => h.1 c hc
    simp only [Memory.write]
    split
    next hak =>
      split
      next hb =>
        by_cases ho : o = a
        · subst ho
          rw [if_pos rfl, hb]
          refine Memory.read_of_forall_lt fun c hc => ?_
          rcases List.mem_cons.1 hc with rfl | hc
          · exact hak
          · have := hkt c hc
            omega
        · rw [if_neg ho]
      next hb =>
        by_cases ho : o = a
        · simp [Memory.read, ho]
        · rw [Memory.read, if_neg (fun e => ho e.symm), if_neg ho]
    next hak =>
      split
      next hk =>
        subst hk
        split
        next hb =>
          by_cases ho : o = a
          · subst ho
            rw [if_pos rfl, hb]
            exact Memory.read_of_forall_lt hkt
          · rw [if_neg ho, Memory.read, if_neg (fun e => ho e.symm)]
        next hb =>
          by_cases ho : o = a
          · simp [Memory.read, ho]
          · have : ¬ a = o := fun e => ho e.symm
            simp [Memory.read, ho, this]
      next hk =>
        by_cases hko : k = o
        · subst hko
          rw [Memory.read, if_pos rfl, if_neg (fun e => hk e.symm), Memory.read, if_pos rfl]
        · rw [Memory.read, if_neg hko, ih h.2, Memory.read, if_neg hko]

theorem Memory.wf_writeList (h : Memory.wf d m) (bs : List Byte) : Memory.wf d (Memory.writeList d m a bs) := by
  induction bs generalizing m a with
  | nil => exact h
  | cons b t ih => exact ih (Memory.wf_write h)

theorem Memory.below_writeList (h : Memory.below n m) {bs : List Byte} (hn : a + bs.length ≤ n) :
    Memory.below n (Memory.writeList d m a bs) := by
  induction bs generalizing m a with
  | nil => exact h
  | cons b t ih =>
    simp only [List.length_cons] at hn
    exact ih (Memory.below_write h (by omega)) (by omega)

/-- A read after a block write: the block's byte inside it, the old byte outside it. -/
theorem Memory.read_writeList (h : Memory.wf d m) (bs : List Byte) (o : Nat) :
    Memory.read d (Memory.writeList d m a bs) o =
      if a ≤ o ∧ o < a + bs.length then bs.getD (o - a) 0 else Memory.read d m o := by
  induction bs generalizing m a with
  | nil => simp [Memory.writeList]
  | cons b t ih =>
    rw [Memory.writeList, ih (Memory.wf_write h), Memory.read_write h.1]
    simp only [List.length_cons]
    by_cases h0 : o = a
    · subst h0
      rw [if_neg (by omega), if_pos rfl, if_pos (by omega)]
      simp
    · by_cases h1 : a + 1 ≤ o ∧ o < a + 1 + t.length
      · obtain ⟨k, rfl⟩ : ∃ k, o = a + 1 + k := ⟨o - (a + 1), by omega⟩
        rw [if_pos h1, if_pos (by omega)]
        have e1 : a + 1 + k - (a + 1) = k := by omega
        have e2 : a + 1 + k - a = k + 1 := by omega
        rw [e1, e2]
        simp
      · rw [if_neg h1, if_neg h0, if_neg (by omega)]

theorem Memory.wf_filter (h : Memory.wf d m) (p : Host.Cell → Bool) : Memory.wf d (m.filter p) :=
  ⟨h.1.filter p, fun c hc => h.2 c (List.mem_of_mem_filter hc)⟩

theorem wf_eraseBytes (h : Memory.wf flashDefault m) (base size : Nat) :
    Memory.wf flashDefault (eraseBytes m base size) := Memory.wf_filter h _

theorem below_eraseBytes (h : Memory.below n m) (base size : Nat) : Memory.below n (eraseBytes m base size) :=
  fun c hc => h c (List.mem_of_mem_filter hc)

theorem Memory.read_filter (d : Byte) (m : Memory) (p : Host.Cell → Bool) (q : Nat → Bool) (o : Nat)
    (hp : ∀ c ∈ m, p c = q c.1) : Memory.read d (m.filter p) o = if q o then Memory.read d m o else d := by
  induction m with
  | nil => simp [Memory.read]
  | cons c t ih =>
    obtain ⟨k, v⟩ := c
    have hc := hp (k, v) (by simp)
    have ih := ih fun x hx => hp x (by simp [hx])
    simp only at hc
    by_cases hk : k = o
    · subst hk
      by_cases hq : q k = true
      · simp [List.filter, hc, hq, Memory.read]
      · simp [List.filter, hc, hq, ih]
    · by_cases hq : q k = true
      · simp [List.filter, hc, hq, ih, Memory.read, hk]
      · simp [List.filter, hc, hq, ih, Memory.read, hk]

/-- An erased byte reads 0xFF, every other byte as before. -/
theorem read_eraseBytes (m : Memory) (base size o : Nat) :
    Memory.read flashDefault (eraseBytes m base size) o =
      if base ≤ o ∧ o < base + size then flashDefault else Memory.read flashDefault m o := by
  unfold eraseBytes
  rw [Memory.read_filter flashDefault m _ (fun k => decide (k < base) || decide (base + size ≤ k)) o (by intros; rfl)]
  by_cases h : base ≤ o ∧ o < base + size
  · rw [if_pos h, if_neg (by simp; omega)]
  · rw [if_neg h, if_pos (by simp; omega)]

theorem wf_programByte {cap : Nat} (h : Memory.wf flashDefault m) : Memory.wf flashDefault (programByte cap m o b) := by
  unfold programByte
  split
  · exact Memory.wf_write h
  · exact h

theorem below_programByte {cap : Nat} (h : Memory.below cap m) : Memory.below cap (programByte cap m o b) := by
  unfold programByte
  split
  · exact Memory.below_write h ‹_›
  · exact h

theorem wf_programBytes {cap : Nat} (h : Memory.wf flashDefault m) (l : List Byte) :
    Memory.wf flashDefault (programBytes cap m o l) := by
  induction l generalizing m o with
  | nil => exact h
  | cons b t ih => exact ih (wf_programByte h)

theorem below_programBytes {cap : Nat} (h : Memory.below cap m) (l : List Byte) :
    Memory.below cap (programBytes cap m o l) := by
  induction l generalizing m o with
  | nil => exact h
  | cons b t ih => exact ih (below_programByte h)

theorem read_programByte {cap x : Nat} (h : Memory.wf flashDefault m) :
    Memory.read flashDefault (programByte cap m o b) x =
      if x = o ∧ o < cap then Memory.read flashDefault m o &&& b else Memory.read flashDefault m x := by
  unfold programByte
  split
  next hc =>
    rw [Memory.read_write h.1]
    by_cases hx : x = o
    · subst hx; simp [hc]
    · simp [hx]
  next hc => rw [if_neg (by omega)]

/-- A programmed byte is the AND of old and new, every other byte is as before (R257, R262). -/
theorem read_programBytes {cap x : Nat} (h : Memory.wf flashDefault m) (l : List Byte) :
    Memory.read flashDefault (programBytes cap m o l) x =
      if o ≤ x ∧ x < o + l.length ∧ x < cap then Memory.read flashDefault m x &&& l.getD (x - o) 0
      else Memory.read flashDefault m x := by
  induction l generalizing m o with
  | nil => simp [programBytes]; intro h1 h2; omega
  | cons b t ih =>
    rw [programBytes, ih (wf_programByte h), read_programByte h]
    simp only [List.length_cons]
    by_cases h0 : x = o
    · subst h0
      rw [if_neg (by omega)]
      by_cases hc : x < cap
      · rw [if_pos ⟨rfl, hc⟩, if_pos (by omega)]; simp
      · rw [if_neg (by omega), if_neg (by omega)]
    · by_cases h1 : o + 1 ≤ x ∧ x < o + 1 + t.length ∧ x < cap
      · obtain ⟨k, rfl⟩ : ∃ k, x = o + 1 + k := ⟨x - (o + 1), by omega⟩
        rw [if_pos h1, if_neg (by omega), if_pos (by omega)]
        have e1 : o + 1 + k - (o + 1) = k := by omega
        have e2 : o + 1 + k - o = k + 1 := by omega
        rw [e1, e2]
        simp
      · rw [if_neg h1, if_neg (by omega), if_neg (by omega)]

theorem Memory.length_readList (d : Byte) (m : Memory) (a n : Nat) : (Memory.readList d m a n).length = n := by
  simp [Memory.readList]

end Sys2Proof.Machine
end

