-- ==== Sys2Proof/Laws/PerInstr.lean ====
section
/-! SUPPORT. Statements about each instruction as syntax, one lemma per constructor. `Ports`: an instruction is encoded
for one port only, the host port for a command and the quad-SPI port for a device instruction (R150), and a frame's
instruction byte is one of the nine configured ones (R158, R159). -/

namespace Sys2Proof.Laws.Ports

open Sys2Proof

/-- Which port an instruction's encoding is for (R150), and that a frame carries one of the nine opcodes (R159). -/
def Statement (i : Instr) : Prop :=
  ∀ c : Cfg,
    ((∃ w, encode c i = some (.cmd w)) ↔ i.isCommand = true) ∧
    ((∃ f, encode c i = some (.frame f)) ↔ i.isCommand = false) ∧
    ∀ f, encode c i = some (.frame f) → f.instr ∈ c.opcodes

variable (v : Byte) (a : Off24) (k : BitVec 5) (n : Word) (d : List Byte)

theorem nop : Statement .nop := by intro c; simp [encode, encodeCmd, Instr.isCommand]
theorem init : Statement .init := by intro c; simp [encode, encodeCmd, Instr.isCommand]
theorem deinit : Statement .deinit := by intro c; simp [encode, encodeCmd, Instr.isCommand]
theorem read : Statement .read := by intro c; simp [encode, encodeCmd, Instr.isCommand]
theorem write : Statement .write := by intro c; simp [encode, encodeCmd, Instr.isCommand]
theorem erase : Statement .erase := by intro c; simp [encode, encodeCmd, Instr.isCommand]
theorem eraseVerify : Statement .eraseVerify := by intro c; simp [encode, encodeCmd, Instr.isCommand]
theorem systemError : Statement .systemError := by intro c; simp [encode, encodeCmd, Instr.isCommand]
theorem bulkErase : Statement .bulkErase := by intro c; simp [encode, encodeCmd, Instr.isCommand]
theorem writeEnable : Statement .writeEnable := by intro c; simp [encode, encodeCmd, Instr.isCommand]
theorem readStatus : Statement .readStatus := by intro c; simp [encode, encodeCmd, Instr.isCommand]

theorem wren : Statement .wren := by
  intro c; simp [encode, encodeCmd, encodeFrame, Instr.isCommand, bareFrame, Cfg.opcodes]
theorem rdsr : Statement .rdsr := by
  intro c; simp [encode, encodeCmd, encodeFrame, Instr.isCommand, regInFrame, bareFrame, Cfg.opcodes]
theorem rdvcr : Statement .rdvcr := by
  intro c; simp [encode, encodeCmd, encodeFrame, Instr.isCommand, regInFrame, bareFrame, Cfg.opcodes]
theorem wrvcr : Statement (.wrvcr v) := by
  intro c; simp [encode, encodeCmd, encodeFrame, Instr.isCommand, regOutFrame, bareFrame, Cfg.opcodes]
theorem qiofr : Statement (.qiofr a k n) := by
  intro c; simp [encode, encodeCmd, encodeFrame, Instr.isCommand, quadInFrame, bareFrame, Cfg.opcodes]
theorem eqpp : Statement (.eqpp a d) := by
  intro c; simp [encode, encodeCmd, encodeFrame, Instr.isCommand, quadOutFrame, bareFrame, Cfg.opcodes]
theorem sse : Statement (.sse a) := by
  intro c; simp [encode, encodeCmd, encodeFrame, Instr.isCommand, eraseFrame, bareFrame, Cfg.opcodes]
theorem se : Statement (.se a) := by
  intro c; simp [encode, encodeCmd, encodeFrame, Instr.isCommand, eraseFrame, bareFrame, Cfg.opcodes]
theorem be : Statement .be := by
  intro c; simp [encode, encodeCmd, encodeFrame, Instr.isCommand, bareFrame, Cfg.opcodes]

end Sys2Proof.Laws.Ports
end

