-- ==== Sys2Proof/Laws/Step.lean ====
section
/-! SUPPORT. The step, said once: whose step it is, what it was taken from, and how a run goes on. -/

namespace Sys2Proof.Machine

theorem takeAgent_shape (s : State) : ∃ a d, (takeAgent s).2 = { s with env.agenda := a, env.draws := d } := by
  unfold takeAgent; split <;> exact ⟨_, _, rfl⟩

/-- Every step is some agent's, from the same state but for what is left of the schedule and the draws. -/
theorem step_inv {s s' : State} (h : step s = .next s') :
    ∃ a ag d, act a { s with env.agenda := ag, env.draws := d } = .next s' := by
  obtain ⟨ag, d, e⟩ := takeAgent_shape s
  exact ⟨(takeAgent s).1, ag, d, by rw [← e]; exact h⟩

theorem step_of_agenda {s : State} {a : Agent} {rest : List Agent} (h : s.env.agenda = a :: rest) :
    step s = act a { s with env.agenda := rest } := by
  simp only [step, takeAgent, h]

theorem run_succ {s t : State} {k : Nat} (h : step s = .next t) :
    Host.Core.run Sys2Proof.core (k + 1) s = Host.Core.run Sys2Proof.core k t := by
  have e : Sys2Proof.core.step s = .next t := h
  simp only [Host.Core.run, e]

/-- The latched opcode, widened, decodes as the opcode map says. -/
theorem decodeCmd_setWidth (op : BitVec 4) : decodeCmd (op.setWidth 32) = decodeOp op := by
  have h1 : cmdRsv (op.setWidth 32) = 0 := by revert op; decide
  have h2 : cmdOp (op.setWidth 32) = op := by revert op; decide
  simp [decodeCmd, h1, h2]

/-- Under the control invariant a running command that does not wait for a flag has no transfer in flight. -/
theorem ControlInv.dma_idle {s : State} (h : ControlInv s) (hr : s.reg.phase = .waitRx → s.st.rc = true)
    (ht : s.reg.phase = .waitTx → s.st.tc = true) : s.st.dma = .idle := by
  by_contra hd
  have hf := h.dma_flags hd
  rcases hdm : s.st.dma with _ | ⟨d, n, a, k⟩ | ⟨p, n, a⟩
  · exact hd hdm
  · have := hr (h.rx_phase _ _ _ _ hdm); simp_all
  · have := ht (h.tx_phase _ _ _ hdm); simp_all

/-- What a step of the CSM can be under the control invariant: none, the refusal of an illegal word, or the step of the
command that runs, in a phase and a lifecycle state of that command, with no transfer in flight. -/
theorem csmStep_cases {s t : State} (h : ControlInv s) (ht : csmStep s = .next t) :
    t = s ∨ (s.reg.phase = .check ∧ t = raise .illegalCmd s.reg.cmd s) ∨
      ∃ i, decodeOp s.st.op = .ok i ∧ exec i s = .next t ∧ csmEnabled s = true ∧ s.reg.busy = true ∧
        s.st.dma = .idle ∧
        (s.reg.phase ≠ .check → s.reg.phase ∈ commandPhases i ∧ lifecycleOk i s.reg.phase s.reg.initState ∧
          (i = .init → subOk s.reg.phase s.st.sub)) := by
  unfold csmStep at ht
  cases hen : csmEnabled s
  · rw [hen] at ht; cases ht; exact .inl rfl
  · rw [hen] at ht
    simp only [if_true] at ht
    have hb : s.reg.busy = true := by
      rw [h.busy_iff]
      constructor <;> intro e <;> simp [csmEnabled, e] at hen
    have hd : s.st.dma = .idle :=
      h.dma_idle (fun e => by simpa [csmEnabled, e] using hen) (fun e => by simpa [csmEnabled, e] using hen)
    by_cases hp : s.reg.phase = .check
    · have hf : fetchWord s = s.reg.cmd := by simp [fetchWord, hp]
      rw [hf] at ht
      rcases hdc : decodeCmd s.reg.cmd with e | i
      · rw [hdc] at ht; simp only [hp, if_true] at ht; cases ht
        exact .inr (.inl ⟨hp, rfl⟩)
      · rw [hdc] at ht
        have ho : decodeOp s.st.op = .ok i := by
          unfold decodeCmd at hdc
          split at hdc
          · cases hdc
          · rw [h.op_cmd hb]; exact hdc
        exact .inr (.inr ⟨i, ho, ht, rfl, hb, hd, fun e => absurd hp e⟩)
    · have hf : fetchWord s = s.st.op.setWidth 32 := by simp [fetchWord, hp]
      obtain ⟨i, h1, h2, h3, h4⟩ := h.past_check hb hp
      rw [hf, decodeCmd_setWidth, h1] at ht
      exact .inr (.inr ⟨i, h1, ht, rfl, hb, hd, fun _ => ⟨h2, h3, h4⟩⟩)

end Sys2Proof.Machine
end

