-- ==== Sys2Proof/Laws/Runs.lean ====
section
/-! SUPPORT. Infinite runs: what a turn of the device, the tick or the sequencer keeps, and that fair runs exist. -/

namespace Sys2Proof.Machine

/-- One place of a run is one agent's action. -/
theorem Runs.act {schedule : Nat → Agent} {r : Nat → State} (h : Runs schedule r) (n : Nat) :
    act (schedule n) { r n with env.agenda := [] } = .next (r (n + 1)) := by
  have := h n
  rwa [step_of_agenda (s := { r n with env.agenda := [schedule n] }) rfl] at this

theorem completeOp_op (s : State) : (completeOp s).dev.op = .none := by
  unfold completeOp
  split <;> first | rfl | assumption

theorem completeOp_inReset (s : State) : (completeOp s).env.inReset = s.env.inReset := by unfold completeOp; split <;> rfl

theorem tickStep_inReset (s : State) : (tickStep s).env.inReset = s.env.inReset := by unfold tickStep; split <;> rfl

theorem sampleStep_inReset (s : State) : (sampleStep s).env.inReset = s.env.inReset := by
  cases hp : s.st.pollActive
  · rw [sampleStep_of_not_active hp]
  · obtain ⟨v, d, t, -, ht, e⟩ := sampleStep_of_active hp
    rw [e, ht]
    split <;> rfl

/-- A tick is enabled when no operation runs (R263). -/
theorem tickEnabled_of_idle {s : State} (h : s.dev.op = .none) : tickEnabled s = true := by
  simp [tickEnabled, maxLatency, h]

/-! ## A fair run from any state out of reset -/

/-- The device, the tick and the sequencer in turn. -/
def roundRobin (n : Nat) : Agent := if n % 3 = 0 then .device else if n % 3 = 1 then .tick else .sample

/-- What those three agents do. -/
def robin (a : Agent) (s : State) : State :=
  match a with
  | .device => completeOp s
  | .tick => tickStep s
  | _ => sampleStep s

/-- The run of the three agents. -/
def robinRun (s : State) : Nat → State
  | 0 => s
  | n + 1 => robin (roundRobin n) { robinRun s n with env.agenda := [] }

theorem robin_inReset (a : Agent) (s : State) : (robin a s).env.inReset = s.env.inReset := by
  unfold robin
  split
  · exact completeOp_inReset s
  · exact tickStep_inReset s
  · exact sampleStep_inReset s

theorem robinRun_inReset {s : State} (h : s.env.inReset = false) (n : Nat) : (robinRun s n).env.inReset = false := by
  induction n with
  | zero => exact h
  | succ n ih => rw [robinRun, robin_inReset]; exact ih

theorem robinRun_runs {s : State} (h : s.env.inReset = false) : Runs roundRobin (robinRun s) := by
  intro n
  rw [step_of_agenda (s := { robinRun s n with env.agenda := [roundRobin n] }) rfl]
  have hr := robinRun_inReset h n
  rw [robinRun]
  by_cases h0 : n % 3 = 0
  · simp [roundRobin, h0, robin, act]
  · by_cases h1 : n % 3 = 1
    · simp [roundRobin, h1, robin, act]
    · simp [roundRobin, h0, h1, robin, act, hr]

/-- The fairness the spec assumes can be met from every state out of reset. -/
theorem exists_fairRun {s : State} (h : s.env.inReset = false) : ∃ schedule r, r 0 = s ∧ FairRun schedule r := by
  refine ⟨roundRobin, robinRun s, rfl, robinRun_runs h, fun n _ => ⟨3 * n + 1, by omega, ?_, ?_⟩,
    fun n _ => ⟨3 * n + 2, by omega, ?_, robinRun_inReset h _⟩, fun n _ => ⟨3 * n, by omega, ?_⟩⟩
  · unfold roundRobin; rw [if_neg (by omega), if_pos (by omega)]
  · have hd : roundRobin (3 * n) = .device := by unfold roundRobin; rw [if_pos (by omega)]
    refine tickEnabled_of_idle ?_
    rw [robinRun, hd]
    exact completeOp_op _
  · unfold roundRobin; rw [if_neg (by omega), if_neg (by omega)]
  · unfold roundRobin; rw [if_pos (by omega)]

end Sys2Proof.Machine
end

