-- ==== Sys2Proof/Tests/Slice0.lean ====
section
/-! SUPPORT. Tests: decoding and well-formedness; one step per instruction with results from 95_test_vectors.md and the
rules (every test names its vector or rule); a witness for the hypotheses of each statement. -/

namespace Sys2Proof.Tests

open Sys2Proof Sys2Proof.Machine Sys2Proof.Spec

/-! ## States -/

/-- A field of the next state, if there is one. -/
def got {α : Type} (r : Result) (f : State → α) : Option α :=
  match r with
  | .next t => some (f t)
  | _ => none

/-- READY after a successful INIT, the device configured and idle (P1). -/
def ready : State :=
  { State.reset with
    reg.initState := .ready
    st.bus := .on (busSetup Cfg.ex1)
    dev.vcr := 0xAB }

/-- A command word accepted, its CSM in a phase, the CSM next. -/
def cmdAt (w : Word) (p : Phase) (s : State) : State :=
  { s with reg.busy := true, reg.phase := p, reg.cmd := w, st.op := w.setWidth 4, env.agenda := [.csm] }

/-- The results to come. -/
def drawing (rs : List XResult) (s : State) : State := { s with env.draws.results := rs }

/-- The host's access to come. -/
def hosting (op : HostOp) (s : State) : State := { s with env.agenda := [.host], env.prog := [op] }

/-- An agent to step. -/
def turn (a : Agent) (s : State) : State := { s with env.agenda := [a] }

/-- The transfer operands. -/
def operands (addr ptr w : Word) (s : State) : State := { s with reg.addr := addr, reg.ptr := ptr, reg.wcount := w }

/-- The block operands. -/
def blocks (b n : Word) (s : State) : State := { s with reg.block := b, reg.count := n }

/-- The cursor, the end and the chunk of a WRITE. -/
def cursor (cur stop chunk : Word) (s : State) : State := { s with st.cur := cur, st.stop := stop, st.chunk := chunk }

/-- An erasing device. -/
def erasing (s : State) : State := { s with dev.wel := true, dev.op := .erase .sse 0x3000 4096 }

/-- The latch set. -/
def latch (s : State) : State := { s with dev.wel := true }

/-- A poll of V-VOT: mask, match and budget, so much time elapsed, the next unrelated status bits drawn. -/
def polling (mask target : Byte) (budget elapsed : Word) (bits : List Byte) (s : State) : State :=
  { s with
    st.pollActive := true
    st.pollMask := mask
    st.pollMatch := target
    st.pollBudget := budget
    st.pollElapsed := elapsed
    env.draws.bytes := bits
    env.agenda := [.sample] }

/-- The outcome of a command: its error, what it reports, and where the CSM is. -/
def verdictOf (t : State) : ErrCode × Word × Phase := (t.reg.errcode, t.reg.errinfo, t.reg.phase)

/-! ## Well-formedness (D11, R205, R155) -/

theorem test_wf_refuses_empty_quad_read : (Instr.qiofr 0 10 0).wf = false := by decide
theorem test_wf_refuses_empty_page_program : (Instr.eqpp 0 []).wf = false := by decide
theorem test_wf_accepts : (Instr.qiofr 0 10 1).wf = true ∧ (Instr.eqpp 0 [0xA5]).wf = true := by decide

/-! ## Decoding: the words of section 2.1 and the bytes of R158 under EX1, written out bit by bit -/

theorem test_decode_nop : decodeCmd 0b00000000000000000000000000000000 = .ok .nop := by rfl
theorem test_decode_init : decodeCmd 0b00000000000000000000000000000001 = .ok .init := by rfl
theorem test_decode_deinit : decodeCmd 0b00000000000000000000000000000010 = .ok .deinit := by rfl
theorem test_decode_read : decodeCmd 0b00000000000000000000000000000011 = .ok .read := by rfl
theorem test_decode_write : decodeCmd 0b00000000000000000000000000000100 = .ok .write := by rfl
theorem test_decode_erase : decodeCmd 0b00000000000000000000000000000101 = .ok .erase := by rfl
theorem test_decode_eraseVerify : decodeCmd 0b00000000000000000000000000000110 = .ok .eraseVerify := by rfl
theorem test_decode_systemError : decodeCmd 0b00000000000000000000000000000111 = .ok .systemError := by rfl
theorem test_decode_bulkErase : decodeCmd 0b00000000000000000000000000001000 = .ok .bulkErase := by rfl
theorem test_decode_writeEnable : decodeCmd 0b00000000000000000000000000001001 = .ok .writeEnable := by rfl
theorem test_decode_readStatus : decodeCmd 0b00000000000000000000000000001010 = .ok .readStatus := by rfl
theorem test_decode_reserved_op : decodeCmd 0x0000000B = .error .reservedOp ∧ decodeCmd 0x0000000F = .error .reservedOp :=
  ⟨rfl, rfl⟩
theorem test_decode_reserved_bits :
    decodeCmd 0x00000013 = .error .reservedBits ∧ decodeCmd 0x80000000 = .error .reservedBits := ⟨rfl, rfl⟩

/-- A frame field by field, in the order of R155. -/
def frame (i : Byte) (am : Lines) (a : Off24) (du : BitVec 5) (dm : Lines) (n : Word) (d : Option Dir) (p : Option Path)
    (bytes : List Byte) : Frame :=
  { instr := i, amode := am, addr := a, dummy := du, dmode := dm, nbytes := n, dir := d, path := p, payload := bytes }

theorem test_decode_wren :
    decodeFrame Cfg.ex1 (frame 0b00000110 .none 0 0 .none 0 none none []) = .ok .wren := by rfl
theorem test_decode_rdsr :
    decodeFrame Cfg.ex1 (frame 0b00000101 .none 0 0 .l1 1 (some .inp) (some .inline) []) = .ok .rdsr := by rfl
theorem test_decode_rdvcr :
    decodeFrame Cfg.ex1 (frame 0b10000101 .none 0 0 .l1 1 (some .inp) (some .inline) []) = .ok .rdvcr := by rfl
theorem test_decode_wrvcr :
    decodeFrame Cfg.ex1 (frame 0b10000001 .none 0 0 .l1 1 (some .out) (some .inline) [0xAB]) = .ok (.wrvcr 0xAB) := by
  rfl
theorem test_decode_qiofr :
    decodeFrame Cfg.ex1 (frame 0b11101011 .l4 0x000200 10 .l4 0x200 (some .inp) (some .dma) []) =
      .ok (.qiofr 0x000200 10 0x200) := by rfl
theorem test_decode_eqpp :
    decodeFrame Cfg.ex1 (frame 0b00010010 .l4 0x0000F8 0 .l4 2 (some .out) (some .dma) [0xA5, 0x5A]) =
      .ok (.eqpp 0x0000F8 [0xA5, 0x5A]) := by rfl
theorem test_decode_sse :
    decodeFrame Cfg.ex1 (frame 0b00100000 .l1 0x003000 0 .none 0 none none []) = .ok (.sse 0x003000) := by rfl
theorem test_decode_se :
    decodeFrame Cfg.ex1 (frame 0b11011000 .l1 0x030000 0 .none 0 none none []) = .ok (.se 0x030000) := by rfl
theorem test_decode_be :
    decodeFrame Cfg.ex1 (frame 0b11000111 .none 0 0 .none 0 none none []) = .ok .be := by rfl
theorem test_decode_unknown :
    decodeFrame Cfg.ex1 (frame 0x9F .none 0 0 .none 0 none none []) = .error .unknownInstr := by rfl
theorem test_decode_wrong_shape :
    decodeFrame Cfg.ex1 (frame 0x06 .l1 0 0 .none 0 none none []) = .error .badShape := by rfl
theorem test_decode_empty_read :
    decodeFrame Cfg.ex1 (frame 0xEB .l4 0 10 .l4 0 (some .inp) (some .dma) []) = .error .emptyData := by rfl

/-- R108: the address of an SSE goes out most significant byte first, a byte most significant bit first. -/
theorem test_wire_order :
    (eraseFrame 0x20 0x123456).wireBytes = [0x20, 0x12, 0x34, 0x56] ∧
    serialBits 0x20 = [false, false, true, false, false, false, false, false] ∧
    quadNibbles 0xA5 = [0xA, 0x5] ∧ byteLane 0x11223344 0 = 0x44 := by decide

/-- Section 2.13. -/
theorem test_frame_clocks :
    (bareFrame 0x06).clocks = 8 ∧ (regInFrame 0x05).clocks = 16 ∧ (eraseFrame 0x20 0x3000).clocks = 32 ∧
    (quadInFrame 0xEB 0 10 0x200).clocks = 1048 ∧ (quadOutFrame 0x12 0 0x100 []).clocks = 526 := by decide

/-- R156: instruction, address, dummy, data: a QIOFR has all four, an EQPP no dummy phase, a WREN the first alone. -/
theorem test_phases_in_order :
    (quadInFrame 0xEB 0x000200 10 2).phases [0x11, 0x22] =
      [.instruction 0xEB, .address .l4 [0x00, 0x02, 0x00], .dummy 10, .data .l4 (some .inp) [0x11, 0x22]] ∧
    (quadOutFrame 0x12 0x0000F8 2 [0xA5, 0x5A]).phases [] =
      [.instruction 0x12, .address .l4 [0x00, 0x00, 0xF8], .data .l4 (some .out) [0xA5, 0x5A]] ∧
    (bareFrame 0x06).phases [] = [.instruction 0x06] := by decide

/-! ## The host port -/

/-- V-ACC-1 to V-ACC-3: STATUS, ERRINFO after a READ from reset; the illegal word first; INIT when READY. -/
theorem test_check_order :
    got (step (cmdAt 3 .check State.reset)) (fun t => (statusWord t.reg, t.reg.errinfo, t.reg.errphase)) =
      some (0x00070006, 0x00000003, .check) ∧
    got (step (cmdAt 0x13 .check State.reset)) verdictOf = some (.illegalCmd, 0x13, .idle) ∧
    got (step (cmdAt 1 .check ready)) verdictOf = some (.state, 2, .idle) := by decide

/-- V-ACC-7, V-HLT-2: a write to CMD while busy or halted is dropped. -/
theorem test_dropped_write :
    got (step (hosting (.write 0x04 4 0) (cmdAt 5 .busyPoll ready))) (fun t => (t.reg.ovr, t.reg.cmd, t.reg.phase)) =
      some (true, 5, .busyPoll) ∧
    got (step (hosting (.write 0x04 4 0) { ready with reg.phase := .halted })) (fun t => (t.reg.ovr, t.reg.busy)) =
      some (true, false) := by decide

/-- V-HLT-1 and V-HLT-3: a failing check under HALT_ON_ERR, and the release. -/
theorem test_halt_and_release :
    got (step (cmdAt 3 .check (operands 0x91000000 0x20000000 1 { ready with reg.haltOnErr := true })))
      (fun t => statusWord t.reg) = some 0x0B010216 ∧
    got (step (hosting (.write 0x20 4 4)
        { ready with reg.phase := .halted, reg.err := true, reg.done := true, reg.ovr := true, reg.errcode := .range }))
      (fun t => statusWord t.reg) = some 0x0001020A := by decide

/-- R162, R163: the accesses of `ERASE 0, 1` (P1). -/
theorem test_erase_accesses :
    accesses (.erase 0 1) = [.write 0x14 4 0, .write 0x18 4 1, .write 0x04 4 5, .wait] := by decide

/-- R162 and R161: `rdsr` ends with a read of DEV_SR at 0x34, `clr` writes 0xE to STATUS. -/
theorem test_more_accesses :
    accesses .rdsr = [.write 0x04 4 0xA, .wait, .read 0x34 4] ∧ assemble .clr = .write 0x20 4 0xE := by decide

/-! ## Host commands, one step each -/

/-- V-ACC-5: NOP from reset ends with STATUS 2. -/
theorem test_nop : got (step (cmdAt 0 .check State.reset)) (fun t => statusWord t.reg) = some 0x00000002 := by decide

/-- V-CFG of section 2.8 and P1: VCR 0xFB gives the program value 0xAB; the read-back 0xAB passes, 0xFB fails. -/
theorem test_init_configures :
    got (step (drawing [.ok] { cmdAt 1 .frame State.reset with st.sub := .cfgRd0 }))
      (fun t => (t.reg.devVcr, t.st.vcrProg, t.reg.phase)) = some (0xFB, 0xAB, .welIssue) := by decide

theorem test_init_compares :
    got (step { cmdAt 1 .compare State.reset with reg.devVcr := 0xFB, st.vcrProg := 0xAB, reg.initState := .busReady })
      (fun t => (verdictOf t, t.reg.initState)) = some ((.configMismatch, 0xFB, .idle), .failed) ∧
    got (step { cmdAt 1 .compare State.reset with reg.devVcr := 0xAF, st.vcrProg := 0xAB, reg.initState := .busReady })
      (fun t => (verdictOf t, t.reg.initState)) = some ((.none, 0, .idle), .ready) := by decide

/-- V-CTL-5: DEINIT from FAILED. -/
theorem test_deinit :
    got (step (cmdAt 2 .check { ready with reg.initState := .failed })) (fun t => (t.reg.initState, t.st.bus)) =
      some (.uninit, .off) := by decide

/-- V-CHK-3, V-CHK-4: the last word of the flash, and one word past it. -/
theorem test_read_range :
    got (step (cmdAt 3 .check (operands 0x90FFFFFC 0x20000000 1 ready))) (fun t => (t.st.cur, t.st.len, t.reg.phase)) =
      some (0xFFFFFC, 4, .frame) ∧
    got (step (cmdAt 3 .check (operands 0x90FFFFFC 0x20000000 2 ready))) verdictOf =
      some (.range, 0x90FFFFFC, .idle) := by decide

/-- V-RD-1 and V-RD-4: the frame of a READ, and its failure. -/
theorem test_read_frame :
    got (step (drawing [.ok, .ok] { cmdAt 3 .frame ready with st.cur := 0x200, st.len := 0x200, st.ptr := 0x20000000 }))
      (fun t => (t.out.busLog, t.st.csht)) =
        some ([{ cmd := 0, frame := quadInFrame 0xEB 0x200 10 0x200, result := .ok, rx := [] }], 1) ∧
    got (step (drawing [.xfail] { cmdAt 3 .frame ready with st.cur := 0x200, st.len := 0x200, st.ptr := 0x20000000,
                                                            env.draws.choices := [0] }))
      (fun t => (verdictOf t, t.reg.errphase, t.st.csht)) = some ((.transport, 0x90000200, .idle), .frame, 5) := by decide

/-- V-SPL-4: the first chunk of a WRITE at 0x080 of 0x300 bytes is 0x80. -/
theorem test_write_first_chunk :
    got (step (cmdAt 4 .check (operands 0x90000080 0x20000000 0xC0 ready)))
      (fun t => (t.st.cur, t.st.stop, t.st.chunk)) = some (0x80, 0x380, 0x80) := by decide

/-- V-SPL-4: then 0x100 at 0x100, and 0x80 at 0x300. -/
theorem test_write_advance :
    got (step (cursor 0x80 0x380 0x80 (cmdAt 4 .advance ready))) (fun t => (t.st.cur, t.st.chunk)) =
      some (0x100, 0x100) ∧
    got (step (cursor 0x200 0x380 0x100 (cmdAt 4 .advance ready))) (fun t => (t.st.cur, t.st.chunk)) =
      some (0x300, 0x80) ∧
    got (step (cursor 0x300 0x380 0x80 (cmdAt 4 .advance ready))) (fun t => (t.reg.done, t.reg.err)) =
      some (true, false) := by decide

/-- V-CHK-14, V-CHK-17: exact sums; P3 and V-ER-2: which instruction erases. -/
theorem test_erase_range :
    got (step (cmdAt 5 .check (blocks 0xFFF 2 ready))) verdictOf = some (.range, 0xFFF, .idle) ∧
    got (step (cmdAt 5 .check (blocks 1 0xFFFFFFFF ready))) verdictOf = some (.range, 1, .idle) := by decide

theorem test_erase_frame :
    got (step (drawing [.ok] (latch { cmdAt 5 .frame ready with st.bi := 3 })))
      (fun t => (t.out.busLog, t.dev.op, t.st.pollBudget)) =
      some ([{ cmd := 0, frame := eraseFrame 0x20 0x003000, result := .ok, rx := [] }], .erase .sse 0x3000 0x1000, 800) ∧
    got (step (drawing [.ok] (latch { cmdAt 5 .frame ready with st.bi := 3, cfg.blockSize := 65536 })))
      (fun t => (t.out.busLog, t.dev.op, t.st.pollBudget)) =
      some ([{ cmd := 0, frame := eraseFrame 0xD8 0x030000, result := .ok, rx := [] }], .erase .se 0x30000 0x10000, 3000) := by decide

/-- V-VF-2: block 1, byte 0x205 is not erased: the second chunk's byte 5. -/
theorem test_verify_mismatch :
    got (step { cmdAt 6 .compare ready with
        st.cur := 0x1200
        st.scratch := [0xFF, 0xFF, 0xFF, 0xFF, 0xFF, 0xFE, 0x00] })
      (fun t => (verdictOf t, t.reg.errphase)) = some ((.verifyMismatch, 0x90001205, .idle), .compare) := by decide

/-- V-CHK-18. -/
theorem test_verify_range :
    got (step (cmdAt 6 .check (blocks 0x1000 0 ready))) verdictOf = some (.range, 0x1000, .idle) := by decide

/-- V-SYS-1 and V-SYS-2. -/
theorem test_systemError :
    got (step (cmdAt 7 .check { ready with reg.ecode := 0xDEADBEEF }))
      (fun t => (t.reg.syserrCode, t.reg.syserrCount, t.reg.done, t.reg.err)) = some (0xDEADBEEF, 1, true, false) ∧
    got (step (cmdAt 7 .check { ready with reg.ecode := 1, reg.syserrCount := 0xFFFFFFFF }))
      (fun t => (t.reg.syserrCode, t.reg.syserrCount)) = some (1, 0xFFFFFFFF) := by decide

/-- V-BE-1. -/
theorem test_bulkErase :
    got (step (drawing [.ok] (latch (cmdAt 8 .frame ready)))) (fun t => (t.dev.op, t.st.pollBudget)) =
      some (.erase .be 0 0x1000000, 250000) := by decide

/-- V-CTL-1 and V-CTL-4: WREN sets the latch of an idle device, not of a busy one. -/
theorem test_writeEnable :
    got (step (drawing [.ok] (cmdAt 9 .welIssue ready))) (fun t => (t.dev.wel, t.st.pollBudget, t.reg.phase)) =
      some (true, 5000, .welPoll) ∧
    got (step (drawing [.ok] { cmdAt 9 .welIssue ready with dev.op := .erase .sse 0 4096 })) (fun t => t.dev.wel) =
      some false := by decide

/-- V-CTL-3. -/
theorem test_readStatus :
    got (step (drawing [.ok] { cmdAt 0xA .frame (erasing ready) with env.draws.bytes := [0] }))
      (fun t => (t.reg.devSr, t.reg.done, t.reg.phase)) = some (0x03, true, .idle) := by decide

/-! ## Device instructions -/

/-- V-DEV-1, V-DEV-4. -/
theorem test_wren :
    got (exec .wren ready) (fun t => t.dev.wel) = some true ∧
    got (exec .wren { ready with dev.op := .erase .sse 0 4096 }) (fun t => t.dev.wel) = some false := by decide

/-- V-DEV-5. -/
theorem test_rdsr :
    got (exec .rdsr { erasing ready with env.draws.bytes := [0] }) (fun t => t.out.busRx) = some [0x03] := by decide

/-- P1's first frame, before the VCR is written. -/
theorem test_rdvcr : got (exec .rdvcr State.reset) (fun t => t.out.busRx) = some [0xFB] := by decide

/-- V-DEV-8, and R255's ignored case. -/
theorem test_wrvcr :
    got (exec (.wrvcr 0xAB) { latch State.reset with cfg.wrvcrClearsWel := some true }) (fun t => (t.dev.vcr, t.dev.wel)) =
      some (0xAB, false) ∧
    got (exec (.wrvcr 0xAB) State.reset) (fun t => t.dev.vcr) = some 0xFB := by decide

/-- R256: the bytes in address order, wrapping from the last byte of the array to the first. -/
theorem test_qiofr :
    got (exec (.qiofr 0xFFFFFE 10 4) { ready with dev.array := [(0, 0x11), (1, 0x22), (0xFFFFFE, 0x33)] })
      (fun t => t.out.busRx) = some [0x33, 0xFF, 0x11, 0x22] := by decide

/-- V-DEV-7 with a page of 4 bytes: data from 0xFA falls on places 2, 3, 0; the page starts at 0xF8. -/
theorem test_eqpp_wraps :
    got (exec (.eqpp 0xFA [0xD0, 0xD1, 0xD2]) { latch ready with cfg.pageSize := 4 }) (fun t => t.dev.op) =
      some (.program 0xF8 [0xD2, 0xFF, 0xD0, 0xD1]) := by decide

/-- V-WR-5 to V-WR-7: old 0xA5, 0xFF, 0x0F and new 0x5A, 0x12, 0xFF. -/
theorem test_program_completes :
    got (step (turn .device { latch ready with dev.op := .program 0 [0x5A, 0x12, 0xFF],
                                               dev.array := [(0, 0xA5), (2, 0x0F)] }))
      (fun t => (t.flashByte 0, t.flashByte 1, t.flashByte 2, t.dev.wel)) = some (0x00, 0x12, 0x0F, false) := by decide

/-- V-DEV-2, V-DEV-3. -/
theorem test_sse :
    got (exec (.sse 0x003456) (latch ready)) (fun t => t.dev.op) = some (.erase .sse 0x3000 4096) ∧
    got (exec (.sse 0x003000) ready) (fun t => t.dev.op) = some .none := by decide

/-- R259. -/
theorem test_se :
    got (exec (.se 0x03FFFF) (latch ready)) (fun t => t.dev.op) = some (.erase .se 0x30000 0x10000) := by decide

/-- V-DEV-9, V-DEV-6. -/
theorem test_be : got (exec .be (latch ready)) (fun t => t.dev.op) = some (.erase .be 0 0x1000000) := by decide

theorem test_erase_completes :
    got (step (turn .device { erasing ready with dev.array := [(0x2FFF, 0x01), (0x3000, 0x02), (0x3FFF, 0x03),
                                                               (0x4000, 0x04)] }))
      (fun t => (t.dev.array, t.dev.wel, t.dev.op)) =
      some ([(0x2FFF, 0x01), (0x4000, 0x04)], false, .none) := by decide

/-! ## The voter (section 2.9), and a transfer -/

/-- V-VOT-6 to V-VOT-8: a busy device, elapsed 4, then 5; an idle one, elapsed 7. -/
theorem test_voter_budget :
    got (step (polling 0x01 0 5 4 [0] (erasing ready))) (fun t => t.st.verdict) = some .none ∧
    got (step (polling 0x01 0 5 5 [0] (erasing ready))) (fun t => (t.st.verdict, t.st.pollActive)) =
      some (.timeout, false) ∧
    got (step (polling 0x01 0 5 7 [0] ready)) (fun t => (t.st.verdict, t.st.pollActive)) = some (.matched, false) := by
  decide

/-- V-VOT-2: the other six bits do not matter. -/
theorem test_voter_mask :
    got (step (polling 0x02 0x02 5000 0 [0xFC] (latch ready))) (fun t => (t.st.verdict, t.reg.devSr)) =
      some (.matched, 0xFE) := by decide

/-- R208: four flash bytes to host memory. -/
theorem test_dma_receive :
    got (step (turn .dma { cmdAt 3 .waitRx ready with st.dma := .rx (.host 0x20000000) 4 0x200 10,
                                                      dev.array := [(0x201, 0x11)] }))
      (fun t => (t.mem, t.st.rc, t.st.dma)) =
      some ([(0x20000000, 0xFF), (0x20000001, 0x11), (0x20000002, 0xFF), (0x20000003, 0xFF)], true, .idle) := by decide

/-- R208, R156: the host's bytes are the data phase of the EQPP on the bus. -/
theorem test_dma_transmit :
    got (step (turn .dma { cmdAt 4 .waitTx (latch ready) with
        st.dma := .tx 0x20000000 2 0xF8
        mem := [(0x20000000, 0xA5), (0x20000001, 0x5A)]
        out.busLog := [{ cmd := 1, frame := quadOutFrame 0x12 0xF8 2 [], result := .ok, rx := [] }] }))
      (fun t => (t.out.busLog.map fun it => it.frame.phases it.rx, t.st.tc)) =
      some ([[.instruction 0x12, .address .l4 [0x00, 0x00, 0xF8], .data .l4 (some .out) [0xA5, 0x5A]]], true) := by decide

/-- R501: reset while a receive of four bytes is stuck (only two are admitted): the first two may have moved. -/
theorem test_reset_cuts_a_transfer :
    let s := turn .resetAssert { cmdAt 3 .waitRx ready with
      st.dma := .rx (.host 0x20000000) 4 0x200 10
      cfg.hostMemAdmit := [{ base := 0x20000000, size := 2 }]
      cfg.sectorSize := 0 }
    got (step { s with env.draws.choices := [2] }) (fun t => t.mem) = some [(0x20000000, 0xFF), (0x20000001, 0xFF)] ∧
    got (step { s with env.draws.choices := [0] }) (fun t => t.mem) = some [] := by decide

/-- R251, D34: a frame that is none of the nine instructions leaves the device as it is. -/
theorem test_foreign_unknown_frame :
    got (step { turn .bus (latch ready) with env.foreign := [bareFrame 0x9F] }) (fun t => (t.dev, t.env.foreign)) =
      some ((latch ready).dev, []) ∧
    got (step { turn .bus (erasing ready) with env.foreign := [bareFrame 0x9F] }) (fun t => (t.dev, t.env.foreign)) =
      some ((erasing ready).dev, []) := by decide

/-- R47, R53, R44: ERRPHASE of a BUSY_POLL failure, GEOM_BLOCK_COUNT and GEOM_DUMMY under EX1. -/
theorem test_register_reads :
    readWindow 0x28 { ready with reg.errphase := .busyPoll } = 8 ∧ readWindow 0x4C ready = 0x1000 ∧
    readWindow 0x5C ready = 10 := by decide

/-! ## Witnesses: states and operands that meet the hypotheses of each statement, clause by clause -/

/-- The reset memories are canonical. -/
theorem reset_memory : MemoryInv State.reset :=
  ⟨by decide, by simp [State.reset], by decide, by simp [State.reset, Device.powerUp]⟩

theorem reset_control : ControlInv State.reset := by constructor <;> simp [State.reset, Regs.reset, Hidden.reset]

theorem witness_DecodeEncodeRoundTrip :
    Cfg.ex1.Valid ∧ (Instr.qiofr 0xFFFFFF 31 0xFFFFFFFF).wf = true ∧ (Instr.eqpp 0xFFFFFF [0]).wf = true ∧
    Instr.readStatus.wf = true := ⟨Cfg.ex1_valid, by decide, by decide, by decide⟩

theorem witness_EncodingIsUnique :
    decode Cfg.ex1 (.cmd 0xA) = .ok .readStatus ∧
    decode Cfg.ex1 (.frame (quadInFrame 0xEB 0xFFFFFF 31 0xFFFFFFFF)) = .ok (.qiofr 0xFFFFFF 31 0xFFFFFFFF) := ⟨rfl, rfl⟩

theorem witness_StepRunsTheDecodedCommand :
    (csmNext (cmdAt 0xA .check State.reset) [] ∧ csmEnabled (cmdAt 0xA .check State.reset) = true ∧
      decodeCmd (if (cmdAt 0xA .check State.reset).reg.phase = .check then (cmdAt 0xA .check State.reset).reg.cmd
        else (cmdAt 0xA .check State.reset).st.op.setWidth 32) = .ok .readStatus) ∧
    (csmNext (cmdAt 4 .advance ready) [] ∧ csmEnabled (cmdAt 4 .advance ready) = true ∧
      decodeCmd (if (cmdAt 4 .advance ready).reg.phase = .check then (cmdAt 4 .advance ready).reg.cmd
        else (cmdAt 4 .advance ready).st.op.setWidth 32) = .ok .write) :=
  ⟨⟨⟨rfl, rfl⟩, rfl, rfl⟩, ⟨rfl, rfl⟩, rfl, rfl⟩

/-- Another agent's WREN on the bus. -/
def foreignWren : State := { turn .bus ready with env.foreign := [bareFrame 0x06] }

theorem witness_StepRunsTheDecodedFrame :
    (foreignWren.env.agenda = [.bus] ∧ foreignWren.env.foreign = [bareFrame 0x06] ∧
      decodeFrame foreignWren.cfg (bareFrame 0x06) = .ok .wren) ∧
    decodeFrame foreignWren.cfg (bareFrame 0x9F) = .error .unknownInstr := ⟨⟨rfl, rfl, rfl⟩, rfl⟩

theorem witness_CsmWaitsForItsCondition :
    ∀ p ∈ [Phase.idle, .halted, .welPoll, .busyPoll, .waitTx, .waitRx],
      csmNext (cmdAt 4 p ready) [] ∧ (cmdAt 4 p ready).reg.phase = p ∧ (cmdAt 4 p ready).st.verdict = .none ∧
      (cmdAt 4 p ready).st.tc = false ∧ (cmdAt 4 p ready).st.rc = false := fun _ _ => ⟨⟨rfl, rfl⟩, rfl, rfl, rfl, rfl⟩

theorem witness_DrawsTouchOnlyDraws :
    (∃ s : State, s.env.draws.results = [.xfail] ∧ s.env.draws.choices = [7] ∧ s.env.draws.bytes = [0xA5]) ∧
    ready.env.draws.results = [] ∧ ready.env.draws.choices = [] ∧ ready.env.draws.bytes = [] :=
  ⟨⟨{ ready with env.draws := { results := [.xfail], choices := [7], bytes := [0xA5], count := 0 } }, rfl, rfl, rfl⟩,
    rfl, rfl, rfl⟩

theorem witness_CommandWriteAcceptedOrDropped :
    hostNext (.write 0x04 4 7) [] (hosting (.write 0x04 4 7) (cmdAt 5 .busyPoll ready)) [] ∧
    hostNext (.write 0x04 4 7) [] (hosting (.write 0x04 4 7) { ready with reg.phase := .halted }) [] ∧
    hostNext (.write 0x04 4 7) [] (hosting (.write 0x04 4 7) ready) [] ∧
    (cmdAt 5 .busyPoll ready).reg.busy = true ∧ ({ ready with reg.phase := .halted } : State).reg.phase = .halted ∧
    ¬ (ready.reg.busy = true ∨ ready.reg.phase = .halted) :=
  ⟨⟨rfl, rfl, rfl⟩, ⟨rfl, rfl, rfl⟩, ⟨rfl, rfl, rfl⟩, rfl, rfl, by decide⟩

theorem witness_StatusWriteClearsAndReleases : hostNext (.write 0x20 4 0xE) [] (hosting (.write 0x20 4 0xE) ready) [] :=
  ⟨rfl, rfl, rfl⟩

theorem witness_RegisterWritesTakeEffect :
    (∀ off, hostNext (.write off 4 0xFFFFFFFF) [] (hosting (.write off 4 0xFFFFFFFF) ready) []) ∧
    (0x24 ≤ 0x24 ∧ 0x24 < 256 ∧ 0x24 % 4 = 0) ∧ (0x24 ≤ 0xFC ∧ 0xFC < 256 ∧ 0xFC % 4 = 0) ∧
    (0x1C ∈ [0x08, 0x0C, 0x10, 0x14, 0x18, 0x1C]) ∧ readWindow 0x60 ready = 0 :=
  ⟨fun _ => ⟨rfl, rfl, rfl⟩, by decide, by decide, by decide, rfl⟩

theorem witness_HostReadHasNoSideEffect :
    (hostNext (.read 0xFC 4) [] (hosting (.read 0xFC 4) ready) [] ∧ 0xFC % 4 = 0 ∧ 0xFC < 256 ∧ 0x60 ≤ 0xFC) ∧
    (hostNext (.read 0x5C 4) [] (hosting (.read 0x5C 4) ready) [] ∧
      (0x5C, 10) ∈ registers (hosting (.read 0x5C 4) ready)) ∧
    (hostNext (.read 0 2) [] (hosting (.read 0 2) ready) [] ∧ 2 ≠ 4) ∧
    (hostNext (.write 2 4 0) [] (hosting (.write 2 4 0) ready) [] ∧ 2 % 4 ≠ 0) ∧
    (∀ d : Bool, hostNext .wait [] (hosting .wait { ready with reg.done := d }) [] ∧
      (statusWord { ready.reg with done := d }).getLsbD 1 = d) :=
  ⟨⟨⟨rfl, rfl, rfl⟩, by decide⟩, ⟨⟨rfl, rfl, rfl⟩, by decide⟩, ⟨⟨rfl, rfl, rfl⟩, by decide⟩,
    ⟨⟨rfl, rfl, rfl⟩, by decide⟩, fun d => ⟨⟨rfl, rfl, rfl⟩, by revert d; decide⟩⟩

theorem witness_StatusFieldsAndIrq : (2 : Word).getLsbD 1 = true ∧ (2 : Word).getLsbD 0 = false := by decide

theorem witness_CommonChecksInOrder :
    (∀ w : Word, csmNext (cmdAt w .check ready) [] ∧ (cmdAt w .check ready).reg.phase = .check) ∧
    ((0x10 : Word).extractLsb' 4 28 ≠ 0 ∧ 0xB ≤ ((0xB : Word).extractLsb' 0 4).toNat) ∧
    ((1 : Word).extractLsb' 4 28 = 0 ∧ decodeOp ((1 : Word).extractLsb' 0 4) = .ok .init ∧
      lifecycleFailure .init (cmdAt 1 .check ready) = some (.state, 2)) ∧
    (decodeOp ((8 : Word).extractLsb' 0 4) = .ok .bulkErase ∧
      lifecycleFailure .bulkErase (cmdAt 8 .check State.reset) = some (.notReady, 8)) ∧
    (decodeOp ((9 : Word).extractLsb' 0 4) = .ok .writeEnable ∧
      lifecycleFailure .writeEnable (cmdAt 9 .check State.reset) = some (.notReady, 9)) ∧
    (decodeOp ((7 : Word).extractLsb' 0 4) = .ok .systemError ∧ Instr.systemError ∈ [Instr.nop, .deinit, .systemError]) :=
  ⟨fun _ => ⟨⟨rfl, rfl⟩, rfl⟩, by decide, ⟨by decide, rfl, by decide⟩, ⟨rfl, by decide⟩, ⟨rfl, by decide⟩, rfl, by decide⟩

/-- One failing operand of every kind, at the edges of the ranges (V-CHK-1, 2, 8, 4, 9, 7, 15, 14, 18). -/
theorem witness_OperandChecksInOrder :
    (∀ w : Word, (cmdAt w .check ready).reg.phase = .check ∧ (cmdAt w .check ready).reg.initState = .ready) ∧
    operandFailure .read (cmdAt 3 .check (operands 0x8FFFFFFC 0x20000000 1 ready)) = some (.range, 0x8FFFFFFC) ∧
    operandFailure .read (cmdAt 3 .check (operands 0x91000000 0x20000000 0 ready)) = some (.range, 0x91000000) ∧
    operandFailure .read (cmdAt 3 .check (operands 0x90000002 0x20000000 1 ready)) = some (.param, 0x90000002) ∧
    operandFailure .write (cmdAt 4 .check (operands 0x90FFFFFC 0x20000000 2 ready)) = some (.range, 0x90FFFFFC) ∧
    operandFailure .write (cmdAt 4 .check (operands 0x90000000 0 0 ready)) = some (.param, 0) ∧
    operandFailure .read (cmdAt 3 .check (operands 0x90000000 0x20000002 1 ready)) = some (.param, 0x20000002) ∧
    operandFailure .erase (cmdAt 5 .check (blocks 0x1000 0 ready)) = some (.range, 0x1000) ∧
    operandFailure .erase (cmdAt 5 .check (blocks 0xFFF 2 ready)) = some (.range, 0xFFF) ∧
    operandFailure .eraseVerify (cmdAt 6 .check (blocks 0x1000 0 ready)) = some (.range, 0x1000) :=
  ⟨fun _ => ⟨rfl, rfl⟩, by decide⟩

theorem witness_CheckStartsTheCommand :
    (∀ (w : Word) (s : State), (cmdAt w .check s).reg.phase = .check) ∧ State.reset.reg.initState = .uninit ∧
    ready.reg.initState = .ready ∧ ready.reg.initState ≠ .uninit := ⟨fun _ _ => rfl, rfl, rfl, by decide⟩

theorem witness_NopCompletes : (cmdAt 0 .check State.reset).reg.phase = .check := rfl

theorem witness_SystemErrorRecordsAndCompletes : (cmdAt 7 .check State.reset).reg.phase = .check := rfl

theorem witness_DeinitCompletes :
    (cmdAt 2 .check State.reset).reg.phase = .check ∧ (cmdAt 2 .check State.reset).st.bus = .off ∧
    (cmdAt 2 .check ready).reg.phase = .check ∧ (cmdAt 2 .check ready).st.bus ≠ .off :=
  ⟨rfl, rfl, rfl, by decide⟩

/-- Both results, for a command in a phase. -/
theorem drawn (w : Word) (p : Phase) (s : State) (r : XResult) (rs : List XResult) :
    (drawing (r :: rs) (cmdAt w p s)).reg.phase = p ∧
    takeResult (drawing (r :: rs) (cmdAt w p s)) = (r, drawing rs (cmdAt w p s)) := ⟨rfl, rfl⟩

theorem witness_InitSetsUpTheBus :
    (∃ s s0, s.reg.phase = .busInit ∧ takeResult s = (.ok, s0)) ∧
    (∃ s s0, s.reg.phase = .busInit ∧ takeResult s = (.xfail, s0)) :=
  ⟨⟨_, _, drawn 1 .busInit State.reset .ok []⟩, _, _, drawn 1 .busInit State.reset .xfail []⟩

theorem witness_InitConfiguresTheDevice :
    ∀ b ∈ [Sub.cfgRd0, .cfgWr, .cfgRd1], ∀ r ∈ [XResult.ok, .xfail],
      (∃ s s0, s.reg.phase = .frame ∧ takeResult s = (r, s0) ∧ s.dev.op = .none ∧ s.dev.wel = true ∧ s.st.sub = b) ∧
      (∃ s s0, s.reg.phase = .frame ∧ takeResult s = (r, s0) ∧ s.dev.op = .none ∧ s.dev.wel = false ∧ s.st.sub = b) ∧
      (∃ s s0, s.reg.phase = .frame ∧ takeResult s = (r, s0) ∧ s.dev.op ≠ .none ∧ s.st.sub = b) :=
  fun b _ r _ => ⟨⟨drawing [r] (cmdAt 1 .frame (latch { State.reset with st.sub := b })), _, rfl, rfl, rfl, rfl, rfl⟩,
    ⟨drawing [r] (cmdAt 1 .frame { State.reset with st.sub := b }), _, rfl, rfl, rfl, rfl, rfl⟩,
    drawing [r] (cmdAt 1 .frame (erasing { State.reset with st.sub := b })), _, rfl, rfl, (fun h => DevOp.noConfusion h), rfl⟩

theorem witness_InitComparesTheReadBack :
    (cmdAt 1 .compare State.reset).reg.phase = .compare ∧
    ((0xFB : Byte) &&& Cfg.ex1.vcrDcMask ≠ 0xAB &&& Cfg.ex1.vcrDcMask) ∧
    ((0xAF : Byte) &&& Cfg.ex1.vcrDcMask = 0xAB &&& Cfg.ex1.vcrDcMask) := ⟨rfl, by decide, by decide⟩

theorem witness_WelIssueSendsWrenAndPolls :
    Instr.init ∈ [Instr.init, .write, .erase, .bulkErase, .writeEnable] ∧
    (∃ s s0, s.reg.phase = .welIssue ∧ takeResult s = (.ok, s0)) ∧
    (∃ s s0, s.reg.phase = .welIssue ∧ takeResult s = (.xfail, s0)) :=
  ⟨by decide, ⟨_, _, drawn 1 .welIssue State.reset .ok []⟩, _, _, drawn 9 .welIssue ready .xfail []⟩

theorem witness_WelPollConsumesTheVerdict :
    (∀ v : Verdict, ({ cmdAt 9 .welPoll ready with st.verdict := v } : State).reg.phase = .welPoll) ∧
    Instr.writeEnable ∈ [Instr.init, .write, .erase, .bulkErase, .writeEnable] ∧ Instr.init ≠ .writeEnable :=
  ⟨fun _ => rfl, by decide, by decide⟩

theorem witness_BusyPollConsumesTheVerdict :
    (∀ v : Verdict, ({ cmdAt 8 .busyPoll ready with st.verdict := v } : State).reg.phase = .busyPoll) ∧
    Instr.bulkErase ∈ [Instr.write, .erase, .bulkErase] ∧ Instr.write ≠ .bulkErase :=
  ⟨fun _ => rfl, by decide, by decide⟩

theorem witness_ReadStatusCompletes :
    ready.cfg.Valid ∧ (∃ s0, takeResult (drawing [.ok] (cmdAt 0xA .frame ready)) = (.ok, s0)) ∧
    (∃ s0, takeResult (drawing [.xfail] (cmdAt 0xA .frame ready)) = (.xfail, s0)) :=
  ⟨Cfg.ex1_valid, ⟨_, rfl⟩, _, rfl⟩

/-- The last word of the flash, and no word at all. -/
theorem witness_ReadCheckLatchesOperands :
    (operandFailure .read (cmdAt 3 .check (operands 0x90FFFFFC 0x20000000 1 ready)) = none ∧
      length (cmdAt 3 .check (operands 0x90FFFFFC 0x20000000 1 ready)) ≠ 0) ∧
    (operandFailure .read (cmdAt 3 .check (operands 0x90000000 0x20000000 0 ready)) = none ∧
      length (cmdAt 3 .check (operands 0x90000000 0x20000000 0 ready)) = 0) ∧
    (cmdAt 3 .check ready).reg.phase = .check ∧ (cmdAt 3 .check ready).reg.initState = .ready := by decide

/-- A read at its FRAME step, with the results to come. -/
def atFrame (w : Word) (rs : List XResult) : State :=
  drawing rs { cmdAt w .frame ready with st.len := 4, st.ptr := 0x20000000 }

/-- The state a read frame is issued in. -/
def shortened (s : State) : State :=
  { s with st.csht := if s.cfg.cshtToggle then s.cfg.cshtRead else s.st.csht }

theorem witness_ReadFrameStartsTheTransfer :
    ∀ w ∈ [(3 : Word), 6],
      ((atFrame w [.xfail]).reg.phase = .frame ∧ ∃ s0, takeResult (shortened (atFrame w [.xfail])) = (.xfail, s0)) ∧
      ∀ r ∈ [XResult.ok, .xfail], (atFrame w [.ok, r]).reg.phase = .frame ∧
        ∃ s0, takeResult (shortened (atFrame w [.ok, r])) = (.ok, s0) ∧
          ∀ f, ∃ s1, takeResult (sent f .ok [] s0) = (r, s1) :=
  fun _ _ => ⟨⟨rfl, _, rfl⟩, fun _ _ => ⟨rfl, _, rfl, fun _ => ⟨_, rfl⟩⟩⟩

theorem witness_WaitStepsConsumeTheFlag :
    ({ cmdAt 3 .waitRx ready with st.rc := true } : State).reg.phase = .waitRx ∧
    ({ cmdAt 3 .waitRx ready with st.rc := true } : State).st.rc = true ∧
    ({ cmdAt 4 .waitTx ready with st.tc := true } : State).reg.phase = .waitTx ∧
    ({ cmdAt 4 .waitTx ready with st.tc := true } : State).st.tc = true := ⟨rfl, rfl, rfl, rfl⟩

theorem witness_VerifyCheckSetsTheRange :
    (cmdAt 6 .check (blocks 0xFFF 0 ready)).reg.phase = .check ∧
    (cmdAt 6 .check (blocks 0xFFF 0 ready)).reg.initState = .ready ∧
    operandFailure .eraseVerify (cmdAt 6 .check (blocks 0xFFF 0 ready)) = none := by decide

/-- A chunk whose second byte is the first that is not erased, and one with none. -/
theorem witness_VerifyComparesEveryByte :
    (cmdAt 6 .compare ready).reg.phase = .compare ∧
    (([0xFF, 0xFE, 0x00] : List Byte)[1]? = some 0xFE ∧ (0xFE : Byte) ≠ Cfg.ex1.erasedByte ∧
      ∀ j < 1, ∀ c, ([0xFF, 0xFE, 0x00] : List Byte)[j]? = some c → c = Cfg.ex1.erasedByte) ∧
    (∀ b ∈ ([0xFF, 0xFF] : List Byte), b = Cfg.ex1.erasedByte) := by
  refine ⟨rfl, ⟨rfl, by decide, ?_⟩, by decide⟩
  intro j hj c hc
  obtain rfl : j = 0 := by omega
  exact (Option.some.inj hc).symm

theorem witness_EraseAndVerifyAdvance :
    (cmdAt 5 .advance ready).reg.phase = .advance ∧
    (0xFFF : Word) + 1 = 0x1000 ∧ (0xFFF : Word) + 1 ≠ 0x1001 ∧
    (0xFFFE00 : Word) + BitVec.ofNat 32 ready.cfg.sectorSize = 0x1000000 ∧
    (0xFFFC00 : Word) + BitVec.ofNat 32 ready.cfg.sectorSize ≠ 0x1000000 := by decide

theorem witness_WriteCheckFormsTheFirstChunk :
    (operandFailure .write (cmdAt 4 .check (operands 0x90FFFFFC 0x20000000 1 ready)) = none ∧
      length (cmdAt 4 .check (operands 0x90FFFFFC 0x20000000 1 ready)) ≠ 0) ∧
    (operandFailure .write (cmdAt 4 .check (operands 0x90000000 0x20000000 0 ready)) = none ∧
      length (cmdAt 4 .check (operands 0x90000000 0x20000000 0 ready)) = 0) ∧
    (cmdAt 4 .check ready).reg.phase = .check ∧ (cmdAt 4 .check ready).reg.initState = .ready := by decide

theorem witness_WriteFrameStartsTheTransfer :
    (∀ r ∈ [XResult.ok, .xfail], (atFrame 4 [.ok, r]).reg.phase = .frame ∧
      ∃ s0, takeResult (atFrame 4 [.ok, r]) = (.ok, s0) ∧ ∀ f, ∃ s1, takeResult (sent f .ok [] s0) = (r, s1)) ∧
    ((atFrame 4 [.xfail]).reg.phase = .frame ∧ ∃ s0, takeResult (atFrame 4 [.xfail]) = (.xfail, s0)) :=
  ⟨fun _ _ => ⟨rfl, _, rfl, fun _ => ⟨_, rfl⟩⟩, rfl, _, rfl⟩

theorem witness_WriteAdvancesByTheChunk :
    (cursor 0x300 0x380 0x80 (cmdAt 4 .advance ready)).reg.phase = .advance ∧ (0x300 : Word) + 0x80 = 0x380 ∧
    (0x200 : Word) + 0x100 ≠ 0x380 := by decide

theorem witness_EraseCheckSetsTheBlocks :
    (operandFailure .erase (cmdAt 5 .check (blocks 0xFFF 1 ready)) = none ∧
      (cmdAt 5 .check (blocks 0xFFF 1 ready)).reg.count ≠ 0) ∧
    (operandFailure .erase (cmdAt 5 .check (blocks 0xFFF 0 ready)) = none ∧
      (cmdAt 5 .check (blocks 0xFFF 0 ready)).reg.count = 0) ∧
    (cmdAt 5 .check ready).reg.phase = .check ∧ (cmdAt 5 .check ready).reg.initState = .ready := by decide

theorem witness_EraseFrameStartsTheErase :
    ∀ r ∈ [XResult.ok, .xfail], ∀ size : Nat,
      ∃ s s0 : State, s.reg.phase = .frame ∧ s.cfg.blockSize = size ∧ takeResult s = (r, s0) :=
  fun r _ size => ⟨drawing [r] (cmdAt 5 .frame { ready with cfg.blockSize := size }), _, rfl, rfl, rfl⟩

theorem witness_WrenSetsTheLatch : ready.dev.op = .none ∧ (erasing ready).dev.op ≠ .none := by decide

theorem witness_RdsrDrivesTheStatus : ready.cfg.Valid := Cfg.ex1_valid

theorem witness_VcrReadAndWritten :
    ((latch ready).dev.op = .none ∧ (latch ready).dev.wel = true) ∧ (erasing ready).dev.op ≠ .none ∧
    ready.dev.wel = false := by decide

theorem witness_QiofrDrivesTheArray :
    (ready.dev.op = .none ∧
      (ready.dev.vcr &&& ready.cfg.vcrDcMask).toNat >>> ready.cfg.vcrDcShift = (10 : BitVec 5).toNat) ∧
    ¬ (ready.dev.op = .none ∧
      (ready.dev.vcr &&& ready.cfg.vcrDcMask).toNat >>> ready.cfg.vcrDcShift = (8 : BitVec 5).toNat) := by decide

theorem witness_EqppLatchesThePage :
    0 < (latch ready).cfg.pageSize ∧ ((latch ready).dev.op = .none ∧ (latch ready).dev.wel = true) ∧
    ready.dev.wel = false ∧ ([0xD0] : List Byte)[0]? = some 0xD0 ∧
    (∀ j, 0 < j → j < ([0xD0] : List Byte).length → (0xFF + j) % 256 ≠ (0xFF + 0) % 256) ∧
    (∀ i, i < ([0xD0] : List Byte).length → (0xFF + i) % 256 ≠ 0) := by
  refine ⟨by decide, by decide, rfl, rfl, ?_, ?_⟩
  · intro j h1 h2; simp at h2; omega
  · intro i h; simp at h; omega

theorem witness_ErasesStartTheirRegion :
    ((latch ready).dev.op = .none ∧ (latch ready).dev.wel = true) ∧ ready.dev.wel = false := by decide

/-- A device with a program or an erase running. -/
def busyWith (op : DevOp) : State := turn .device { latch ready with dev.op := op }

theorem witness_DeviceCompletesAtomically :
    ∀ op ∈ [DevOp.program 0 [0x5A], .erase .be 0 0x1000000],
      MemoryInv (busyWith op) ∧ (busyWith op).env.agenda = [.device] ∧ (busyWith op).dev.op = op ∧ op ≠ .none := by
  intro op h
  refine ⟨⟨reset_memory.mem_wf, reset_memory.mem_below, reset_memory.array_wf, reset_memory.array_below⟩, rfl, rfl, ?_⟩
  revert h op; decide

/-- A transfer in flight at its completion step. -/
def moving (d : Dma) (regions : List Region) : State :=
  turn .dma { ready with st.dma := d, cfg.hostMemAdmit := regions }

theorem moving_memory (d : Dma) (regions : List Region) : MemoryInv (moving d regions) :=
  ⟨reset_memory.mem_wf, reset_memory.mem_below, reset_memory.array_wf, reset_memory.array_below⟩

/-- The last four bytes of host memory, admitted and not; the scratch buffer. -/
theorem witness_DmaReceiveCompletes :
    (∀ d a, MemoryInv (moving d a) ∧ (moving d a).env.agenda = [.dma] ∧ (moving d a).env.inReset = false ∧
      (moving d a).st.dma = d ∧ (moving d a).dev.op = .none) ∧
    admits (moving .idle [{ base := 0, size := 2 ^ 32 }]).cfg (0xFFFFFFFC : Word).toNat 4 = true ∧
    admits (moving .idle []).cfg (0xFFFFFFFC : Word).toNat 4 = false ∧
    vcrDummy Cfg.ex1 ready.dev.vcr = (10 : BitVec 5).toNat :=
  ⟨fun d a => ⟨moving_memory d a, rfl, rfl, rfl, rfl⟩, by decide, by decide, by decide⟩

theorem witness_DmaTransmitCompletes :
    (∀ a, (moving (.tx 0xFFFFFFFC 4 0) a).env.agenda = [.dma] ∧ (moving (.tx 0xFFFFFFFC 4 0) a).env.inReset = false ∧
      (moving (.tx 0xFFFFFFFC 4 0) a).st.dma = .tx 0xFFFFFFFC 4 0) ∧
    admits (moving (.tx 0xFFFFFFFC 4 0) [{ base := 0, size := 2 ^ 32 }]).cfg (0xFFFFFFFC : Word).toNat 4 = true ∧
    admits (moving (.tx 0xFFFFFFFC 4 0) []).cfg (0xFFFFFFFC : Word).toNat 4 = false ∧
    (∀ c ∈ (moving (.tx 0xFFFFFFFC 4 0) []).env.stale, c.1 < 0xFFFFFFFC ∨ 0xFFFFFFFC + 4 ≤ c.1) :=
  ⟨fun _ => ⟨rfl, rfl, rfl⟩, by decide, by decide, by decide⟩

/-- A store during a WRITE and at rest; a load of the first and of the last byte of a READ's buffer, and past it. -/
theorem witness_HostMemoryAccesses :
    (∀ a b, hostNext (.store a b) [] (hosting (.store a b) (cmdAt 4 .waitTx ready)) [] ∧
      hostNext (.store a b) [] (hosting (.store a b) ready) []) ∧
    (∀ a, hostNext (.load a) [] (hosting (.load a) (cmdAt 3 .check (operands 0x90000000 0x20000000 1 ready))) []) ∧
    (∀ w, MemoryInv (hosting (.load w) ready)) ∧
    (∀ a ∈ [0x20000000, 0x20000003],
      inReadBuffer (cmdAt 3 .check (operands 0x90000000 0x20000000 1 ready)) a = true) ∧
    inReadBuffer (cmdAt 3 .check (operands 0x90000000 0x20000000 1 ready)) 0x20000004 = false ∧
    inReadBuffer { cmdAt 3 .waitRx ready with st.ptr := 0x20000000, st.len := 4 } 0x20000003 = true :=
  ⟨fun _ _ => ⟨⟨rfl, rfl, rfl⟩, rfl, rfl, rfl⟩, fun _ => ⟨rfl, rfl, rfl⟩,
    fun _ => ⟨reset_memory.mem_wf, reset_memory.mem_below, reset_memory.array_wf, reset_memory.array_below⟩, by decide⟩

/-- A match; no match with the budget used up, and with one tick left (V-VOT-4, 7, 6). -/
theorem witness_SampleStepVotes :
    (∀ m t b e bits s, (polling m t b e bits s).env.agenda = [.sample] ∧ (polling m t b e bits s).st.pollActive = true) ∧
    (polling 0x01 0 5 0 [0x02] ready).env.inReset = false ∧
    srByte ready.cfg ready.dev (takeByte (polling 0x01 0 5 0 [0x02] ready)).1 &&& (0x01 : Byte) = 0 ∧
    srByte (erasing ready).cfg (erasing ready).dev (takeByte (polling 0x01 0 5 5 [0] (erasing ready))).1 &&& (0x01 : Byte)
      ≠ 0 ∧
    (5 : Word) ≤ 5 ∧ ¬ (5 : Word) ≤ 4 := ⟨fun _ _ _ _ _ _ => ⟨rfl, rfl⟩, rfl, by decide⟩

/-- An ERASE whose busy poll runs, the device erasing. -/
def midPoll : State := polling 1 0 5 0 [] (cmdAt 5 .busyPoll (erasing ready))

theorem midPoll_control : ControlInv midPoll := by
  constructor
  case past_check =>
    intro _ _
    exact ⟨.erase, rfl, by decide, rfl, by simp⟩
  all_goals simp [midPoll, polling, cmdAt, erasing, ready, State.reset, Hidden.reset, Env.quiet, cmdOp]

/-- At the maximum latency, one tick before it, and with nothing running; a fair run from a running poll and erase. -/
theorem witness_TickAdvancesTime :
    (∀ s, (turn .tick s).env.agenda = [.tick]) ∧
    ({ erasing ready with cfg.devLatencyBounded := true, dev.age := 800 } : State).cfg.devLatencyBounded = true ∧
    (erasing ready).dev.op ≠ .none ∧ tmax Cfg.ex1 (erasing ready).dev.op ≤ (800 : Word).toNat ∧
    (799 : Word).toNat < tmax Cfg.ex1 (erasing ready).dev.op ∧ ready.dev.op = .none ∧
    ready.cfg.devLatencyBounded = false ∧
    ∃ schedule r, FairRun schedule r ∧ ControlInv (r 0) ∧ (r 0).st.pollActive = true ∧ (r 0).dev.op ≠ .none := by
  refine ⟨fun _ => rfl, rfl, by decide, by decide, by decide, by decide, rfl, ?_⟩
  obtain ⟨schedule, r, h0, hf⟩ := exists_fairRun (s := midPoll) rfl
  exact ⟨schedule, r, hf, h0 ▸ midPoll_control, h0 ▸ rfl, h0 ▸ (by decide)⟩

theorem witness_ResetRestoresTheBlock :
    (∀ d : Dma, ∃ s : State, s.env.agenda = [.resetAssert] ∧ s.env.inReset = false ∧ s.st.dma = d ∧ MemoryInv s ∧
      s.dev.op = .none ∧ vcrDummy s.cfg s.dev.vcr = (10 : BitVec 5).toNat) ∧
    (∀ a ∈ [Agent.csm, .dma, .sample, .host], ({ turn a ready with env.inReset := true } : State).env.inReset = true ∧
      ({ turn a ready with env.inReset := true } : State).env.agenda = [a]) ∧
    (∀ a : Agent, ({ turn a ready with env.inReset := true } : State).st.pollActive = false) ∧
    (∃ v, step ({ turn .resetRelease ready with env.inReset := true } : State) = .next v ∧ v.env.inReset = false) ∧
    ∃ v, step ({ turn .bus ready with env.inReset := true } : State) = .next v :=
  ⟨fun d => ⟨turn .resetAssert { ready with st.dma := d }, rfl, rfl, rfl,
    ⟨reset_memory.mem_wf, reset_memory.mem_below, reset_memory.array_wf, reset_memory.array_below⟩, rfl,
    show vcrDummy Cfg.ex1 0xAB = 10 by decide⟩, fun _ _ => ⟨rfl, rfl⟩, fun _ => rfl, ⟨_, rfl, rfl⟩, ⟨_, rfl⟩⟩

/-! ### A WRITE in the middle of its work -/

/-- V-SPL-4's first chunk: the latch set and matched, the EQPP next. -/
def midWrite : State :=
  { cursor 0x80 0x380 0x80 (cmdAt 4 .frame (latch ready)) with
    env.draws.results := [.ok, .ok]
    out.commands := 2
    out.busLog :=
      [{ cmd := 2, frame := regInFrame 0x05, result := .ok, rx := [0x02] },
        { cmd := 2, frame := bareFrame 0x06, result := .ok, rx := [] }] }

theorem midWrite_memory : MemoryInv midWrite :=
  ⟨reset_memory.mem_wf, reset_memory.mem_below, reset_memory.array_wf, reset_memory.array_below⟩

theorem midWrite_control : ControlInv midWrite := by
  constructor
  case past_check =>
    intro _ _
    exact ⟨.write, rfl, by decide, rfl, by simp⟩
  all_goals simp [midWrite, cursor, cmdAt, latch, ready, State.reset, Hidden.reset, Env.quiet, cmdOp]

theorem midWrite_split : SplitInv midWrite := by
  refine ⟨midWrite_control, fun _ _ _ => ?_, by unfold withinPage; decide⟩
  constructor <;> (try unfold withinPage) <;> decide

theorem midWrite_latch : LatchInv midWrite := by
  refine ⟨midWrite_control, ?_, ?_, ?_, fun _ => ⟨⟨_, _, rfl, rfl, rfl, rfl⟩, _, _, 0x02, rfl, rfl, rfl, by decide⟩⟩
  · refine ⟨fun h => ?_, fun h => ?_, trivial⟩ <;> exact absurd h (by decide)
  · intro h; exact absurd h (by decide)
  · intro h; exact absurd h (by decide)

theorem midWrite_steps : ∃ t, step midWrite = .next t := ⟨_, rfl⟩

theorem witness_StepKeepsMemoryCanonical : MemoryInv midWrite ∧ ∃ t, step midWrite = .next t :=
  ⟨midWrite_memory, midWrite_steps⟩

theorem witness_StepKeepsControl : ControlInv midWrite ∧ ∃ t, step midWrite = .next t :=
  ⟨midWrite_control, midWrite_steps⟩

theorem witness_StepKeepsSplit : midWrite.cfg.Valid ∧ SplitInv midWrite ∧ ∃ t, step midWrite = .next t :=
  ⟨Cfg.ex1_valid, midWrite_split, midWrite_steps⟩

theorem witness_StepKeepsLatchDiscipline : midWrite.cfg.Valid ∧ LatchInv midWrite ∧ ∃ t, step midWrite = .next t :=
  ⟨Cfg.ex1_valid, midWrite_latch, midWrite_steps⟩

theorem witness_NoStepFaults : ControlInv midWrite := midWrite_control

theorem witness_StepKeepsConfigAndVocabulary : SendsOnlyNine midWrite ∧ ∃ t, step midWrite = .next t :=
  ⟨by unfold SendsOnlyNine; decide, midWrite_steps⟩

/-! ### Whole commands -/

/-- A command accepted, with its agents and its results to come. -/
def scheduled (w : Word) (ag : List Agent) (rs : List XResult) (s : State) : State :=
  { drawing rs (cmdAt w .check s) with env.agenda := ag }

theorem witness_InitMakesTheBlockReady :
    let s := scheduled 1 [.csm, .csm, .csm, .csm, .sample, .csm, .csm, .csm, .csm] [.ok, .ok, .ok, .ok, .ok] State.reset
    s.cfg.Valid ∧ s.env.agenda = [Agent.csm, .csm, .csm, .csm, .sample, .csm, .csm, .csm, .csm] ++ [] ∧
    s.env.inReset = false ∧ s.env.draws.results = List.replicate 5 .ok ++ [] ∧ s.reg.phase = .check ∧ s.reg.cmd = 1 ∧
    s.st.op = 1 ∧ s.reg.initState = .uninit ∧ s.dev.op = .none := ⟨Cfg.ex1_valid, rfl, rfl, rfl, rfl, rfl, rfl, rfl, rfl⟩

/-- The last word of the flash. -/
theorem witness_ReadDeliversTheFlashBytes :
    let s := scheduled 3 [.csm, .csm, .dma, .csm] [.ok, .ok] (operands 0x90FFFFFC 0x20000000 1 ready)
    s.cfg.Valid ∧ MemoryInv s ∧ s.env.agenda = [Agent.csm, .csm, .dma, .csm] ++ [] ∧ s.env.inReset = false ∧
    s.env.draws.results = .ok :: .ok :: [] ∧ s.reg.phase = .check ∧ s.reg.cmd = 3 ∧ s.st.op = 3 ∧
    s.reg.initState = .ready ∧ operandFailure .read s = none ∧ s.reg.wcount ≠ 0 ∧ s.dev.op = .none ∧
    vcrDummy s.cfg s.dev.vcr = s.cfg.dummyCycles ∧ admits s.cfg s.reg.ptr.toNat (length s) = true :=
  ⟨Cfg.ex1_valid, ⟨reset_memory.mem_wf, reset_memory.mem_below, reset_memory.array_wf, reset_memory.array_below⟩, by
    decide⟩

theorem witness_EraseLeavesTheBlockErased :
    let s := scheduled 5 [.csm, .csm, .sample, .csm, .csm, .device, .sample, .csm, .csm] [.ok, .ok]
      (blocks 0xFFF 1 ready)
    s.cfg.Valid ∧ s.env.agenda = [Agent.csm, .csm, .sample, .csm, .csm, .device, .sample, .csm, .csm] ++ [] ∧
    s.env.inReset = false ∧ s.env.draws.results = .ok :: .ok :: [] ∧ s.reg.phase = .check ∧ s.reg.cmd = 5 ∧
    s.st.op = 5 ∧ s.reg.initState = .ready ∧ operandFailure .erase s = none ∧ s.reg.count = 1 ∧ s.dev.op = .none :=
  ⟨Cfg.ex1_valid, by decide⟩

/-- V-SPL-4: 0x300 bytes at 0x080, four chunks. -/
theorem witness_WriteProgramsTheWholeRange :
    let s := scheduled 4 (.csm :: (List.replicate 4 chunkTurns).flatten) (List.replicate 12 .ok)
      (operands 0x90000080 0x20000000 0xC0 ready)
    s.cfg.Valid ∧ MemoryInv s ∧ 4 = chunkCount s.cfg.pageSize (offset s) (length s) ∧
    s.env.agenda = .csm :: ((List.replicate 4 chunkTurns).flatten ++ []) ∧ s.env.inReset = false ∧
    s.env.draws.results = List.replicate (3 * 4) .ok ++ [] ∧ s.reg.phase = .check ∧ s.reg.cmd = 4 ∧ s.st.op = 4 ∧
    s.reg.initState = .ready ∧ operandFailure .write s = none ∧ s.reg.wcount ≠ 0 ∧ s.dev.op = .none ∧
    s.env.stale = [] ∧ admits s.cfg s.reg.ptr.toNat (length s) = true :=
  ⟨Cfg.ex1_valid, ⟨reset_memory.mem_wf, reset_memory.mem_below, reset_memory.array_wf, reset_memory.array_below⟩, by
    decide⟩

end Sys2Proof.Tests
end

section
/-! Scope (00_scope.md): the draws, the CSM's step as `exec` of its command, and what no step changes. -/

namespace Sys2Proof.Proofs

open Sys2Proof Sys2Proof.Machine Sys2Proof.Spec

/-! ## Draws (R14) -/

section Draws

variable {s : State}

theorem takeResult_of_cons {r : XResult} {rs : List XResult} (h : s.env.draws.results = r :: rs) :
    takeResult s = (r, { s with env.draws.results := rs }) := by simp only [takeResult, h]

theorem takeResult_of_nil (h : s.env.draws.results = []) :
    takeResult s = (Config.freeResult s.env.draws.count, { s with env.draws.count := s.env.draws.count + 1 }) := by
  simp only [takeResult, h]

theorem takeChoice_of_cons {k : Nat} {ks : List Nat} (h : s.env.draws.choices = k :: ks) :
    takeChoice s = (k, { s with env.draws.choices := ks }) := by simp only [takeChoice, h]

theorem takeChoice_of_nil (h : s.env.draws.choices = []) :
    takeChoice s = (Config.freeChoice s.env.draws.count, { s with env.draws.count := s.env.draws.count + 1 }) := by
  simp only [takeChoice, h]

theorem takeByte_of_cons {b : Byte} {bs : List Byte} (h : s.env.draws.bytes = b :: bs) :
    takeByte s = (b, { s with env.draws.bytes := bs }) := by simp only [takeByte, h]

theorem takeByte_of_nil (h : s.env.draws.bytes = []) :
    takeByte s = (Config.freeByte s.env.draws.count, { s with env.draws.count := s.env.draws.count + 1 }) := by
  simp only [takeByte, h]

end Draws

/-- Settles O7: one equation per draw for a list with a next value and for one used up. -/
theorem drawsTouchOnlyDraws : Obligations.DrawsTouchOnlyDraws := fun s =>
  ⟨fun _ _ => takeResult_of_cons, fun _ _ => takeChoice_of_cons, fun _ _ => takeByte_of_cons,
    s.env.draws.count, _, rfl, rfl, takeResult_of_nil, takeChoice_of_nil, takeByte_of_nil⟩

/-! ## The CSM's step (R13, R467) -/

/-- The CSM next, out of reset: the step is the CSM's. -/
theorem step_of_csmNext {s : State} {rest : List Agent} (h : csmNext s rest) : step s = csmStep (taken rest s) := by
  obtain ⟨hagenda, hreset⟩ := h
  rw [step_of_agenda hagenda]
  simp only [act, hreset, Bool.false_eq_true, if_false, taken]

theorem csmStep_of_decode {s : State} {i : Instr} (hen : csmEnabled s = true) (hi : decodeCmd (fetchWord s) = .ok i) :
    csmStep s = exec i s := by simp only [csmStep, hen, hi, if_true]

/-- Settles O4: whether the CSM is enabled and the word it fetches do not depend on the agenda. -/
theorem stepRunsTheDecodedCommand : Obligations.StepRunsTheDecodedCommand := by
  intro s rest i hnext hen hi
  calc step s = csmStep (taken rest s) := step_of_csmNext hnext
    _ = exec i (taken rest s) := csmStep_of_decode hen hi

/-! ## What no step changes (R6, R159)

`KeepsVocabulary s t` is proved of every named operation from its parts, then of `exec` and of every agent. -/

/-- From `s` to `t` the parameters stay, and the log stays one of the nine instructions' frames. -/
structure KeepsVocabulary (s t : State) : Prop where
  cfg : t.cfg = s.cfg
  sends : SendsOnlyNine s → SendsOnlyNine t

namespace KeepsVocabulary

variable {s t u : State} {r : XResult × State} {f : Frame} {k : State → State} {i : Word}

theorem refl (s : State) : KeepsVocabulary s s := ⟨rfl, id⟩

theorem trans (h : KeepsVocabulary s t) (h' : KeepsVocabulary t u) : KeepsVocabulary s u :=
  ⟨h'.cfg.trans h.cfg, h'.sends ∘ h.sends⟩

theorem ite {p : Prop} [Decidable p] (h : KeepsVocabulary s t) (h' : KeepsVocabulary s u) :
    KeepsVocabulary s (if p then t else u) := by split <;> assumption

/-- What leaves the parameters and the log alone; an update of other fields does so by `rfl`. -/
theorem of_unchanged (hc : t.cfg = s.cfg := by rfl) (hl : t.out.busLog = s.out.busLog := by rfl) :
    KeepsVocabulary s t :=
  ⟨hc, by unfold SendsOnlyNine; rw [hc, hl]; exact id⟩

theorem of_busOnly (h : BusOnly s t) : KeepsVocabulary s t := of_unchanged h.cfg h.log

/-- A frame of one of the nine instructions joins the log. -/
theorem of_cons {it : BusItem} (hc : t.cfg = s.cfg) (hl : t.out.busLog = it :: s.out.busLog)
    (hf : it.frame.instr ∈ s.cfg.opcodes) : KeepsVocabulary s t :=
  ⟨hc, fun h => by unfold SendsOnlyNine; rw [hc, hl]; exact List.forall_mem_cons.2 ⟨hf, h⟩⟩

/-- The newest frame of the log is filled in under the same instruction. -/
theorem of_head {it it' : BusItem} {rest : List BusItem} (hc : t.cfg = s.cfg) (hs : s.out.busLog = it :: rest)
    (ht : t.out.busLog = it' :: rest) (hi : it'.frame.instr = it.frame.instr) : KeepsVocabulary s t :=
  ⟨hc, by unfold SendsOnlyNine; rw [hc, hs, ht, List.forall_mem_cons, List.forall_mem_cons, hi]; exact id⟩

theorem of_issued (h : Issued f s r) (hf : f.instr ∈ s.cfg.opcodes) : KeepsVocabulary s r.2 := by
  obtain ⟨rx, hlog⟩ := h.log
  exact of_cons h.cfg hlog hf

/-! ### Operations that go on -/

theorem orTransport (h : KeepsVocabulary s r.2) (hk : ∀ t, KeepsVocabulary t (k t)) :
    KeepsVocabulary s (orTransport i r k) := by
  obtain ⟨x, t⟩ := r
  cases x with
  | ok => exact h.trans (hk t)
  | xfail => exact h.trans of_unchanged

theorem failIf {e : Option CheckFailure} (h : KeepsVocabulary s (k s)) : KeepsVocabulary s (failIf e k s) := by
  cases e with
  | none => exact h
  | some c => exact of_unchanged

theorem takeVerdict (hk : ∀ t, KeepsVocabulary t (k t)) : KeepsVocabulary s (takeVerdict i k s) := by
  have hclear : KeepsVocabulary s { s with st.verdict := .none } := of_unchanged
  unfold Machine.takeVerdict
  split
  · exact refl s
  · exact of_unchanged
  · exact hclear.trans (hk _)

theorem waitTx (hk : ∀ t, KeepsVocabulary t (k t)) : KeepsVocabulary s (waitTx k s) :=
  have hclear : KeepsVocabulary s { s with st.tc := false } := of_unchanged
  ite (hclear.trans (hk _)) (refl s)

theorem waitRx (hk : ∀ t, KeepsVocabulary t (k t)) : KeepsVocabulary s (waitRx k s) :=
  have hclear : KeepsVocabulary s { s with st.rc := false, st.csht := s.cfg.cshtDefault } := of_unchanged
  ite (hclear.trans (hk _)) (refl s)

end KeepsVocabulary

open KeepsVocabulary (of_unchanged of_busOnly of_cons of_issued)

variable {s t : State}

theorem toPhase_keeps (p : Phase) (s : State) : KeepsVocabulary s (toPhase p s) := of_unchanged

theorem finish_keeps (s : State) : KeepsVocabulary s (finish s) := of_unchanged

theorem busyWait_keeps (n : Nat) (s : State) : KeepsVocabulary s (busyWait n s) := of_unchanged

/-! ### Frames, transfers and the bus -/

@[simp] theorem bareFrame_instr (o : Byte) : (bareFrame o).instr = o := rfl
@[simp] theorem eraseFrame_instr (o : Byte) (a : Off24) : (eraseFrame o a).instr = o := rfl
@[simp] theorem regInFrame_instr (o : Byte) : (regInFrame o).instr = o := rfl
@[simp] theorem regOutFrame_instr (o v : Byte) : (regOutFrame o v).instr = o := rfl
@[simp] theorem quadInFrame_instr (o : Byte) (a : Off24) (k : BitVec 5) (n : Word) :
    (quadInFrame o a k n).instr = o := rfl
@[simp] theorem quadOutFrame_instr (o : Byte) (a : Off24) (n : Word) (l : List Byte) :
    (quadOutFrame o a n l).instr = o := rfl

theorem issueWren_keeps (s : State) : KeepsVocabulary s (issueWren s).2 :=
  of_issued (issueWren_issued s) (by simp [Cfg.opcodes])

theorem issueRdsr_keeps (s : State) : KeepsVocabulary s (issueRdsr s).2 :=
  of_issued (issueRdsr_issued s) (by simp [Cfg.opcodes])

theorem issueRdvcr_keeps (s : State) : KeepsVocabulary s (issueRdvcr s).2 :=
  of_issued (issueRdvcr_issued s) (by simp [Cfg.opcodes])

theorem issueWrvcr_keeps (v : Byte) (s : State) : KeepsVocabulary s (issueWrvcr v s).2 :=
  of_issued (issueWrvcr_issued v s) (by simp [Cfg.opcodes])

theorem issueSse_keeps (a : Off24) (s : State) : KeepsVocabulary s (issueSse a s).2 :=
  of_issued (issueSse_issued a s) (by simp [Cfg.opcodes])

theorem issueSe_keeps (a : Off24) (s : State) : KeepsVocabulary s (issueSe a s).2 :=
  of_issued (issueSe_issued a s) (by simp [Cfg.opcodes])

theorem issueBe_keeps (s : State) : KeepsVocabulary s (issueBe s).2 :=
  of_issued (issueBe_issued s) (by simp [Cfg.opcodes])

theorem issueQiofr_keeps (a : Off24) (n : Nat) (s : State) : KeepsVocabulary s (issueQiofr a n s).2 :=
  of_issued (issueQiofr_issued a n s) (by simp [Cfg.opcodes])

theorem issueEqpp_keeps (a : Off24) (p : Word) (n : Nat) (s : State) : KeepsVocabulary s (issueEqpp a p n s).2 :=
  of_issued (issueEqpp_issued a p n s) (by simp [Cfg.opcodes])

theorem startDma_keeps {d : Dma} {part : Nat → State → State} (hp : ∀ k t, BusOnly t (part k t)) (s : State) :
    KeepsVocabulary s (startDma d part s).2 := by
  obtain ⟨s0, h0, h⟩ | ⟨s0, h0, h⟩ := startDma_cases (d := d) hp s
  · rw [h]; exact of_unchanged h0.cfg h0.log
  · rw [h]; exact of_busOnly h0

theorem busInit_keeps (s : State) : KeepsVocabulary s (busInit s).2 := by
  have h0 := takeResult_busOnly s
  unfold busInit
  dsimp only
  split
  · exact of_unchanged h0.cfg h0.log
  · exact of_busOnly h0

theorem welIssue_keeps (i : Word) (s : State) : KeepsVocabulary s (welIssue i s) :=
  .orTransport (issueWren_keeps s) fun _ => of_unchanged

theorem startRead_keeps (dst : DmaDst) (n : Nat) (s : State) : KeepsVocabulary s (startRead dst n s) :=
  have hcsht : KeepsVocabulary s (if s.cfg.cshtToggle then { s with st.csht := s.cfg.cshtRead } else s) :=
    .ite of_unchanged (.refl s)
  .orTransport (hcsht.trans (issueQiofr_keeps ..)) fun t =>
    .orTransport (startDma_keeps (fun _ => BusOnly.refl) t) (toPhase_keeps .waitRx)

/-! ### The commands' steps -/

theorem readCheck_keeps (s : State) : KeepsVocabulary s (readCheck s) := .ite of_unchanged of_unchanged

theorem writeCheck_keeps (s : State) : KeepsVocabulary s (writeCheck s) := .ite of_unchanged of_unchanged

theorem writeFrame_keeps (s : State) : KeepsVocabulary s (writeFrame s) :=
  .orTransport (issueEqpp_keeps ..) fun t =>
    .orTransport (startDma_keeps (fun k u => partEqpp_busOnly u _ _ _ k) t) (toPhase_keeps .waitTx)

theorem writeAdvance_keeps (s : State) : KeepsVocabulary s (writeAdvance s) := .ite of_unchanged of_unchanged

theorem eraseCheck_keeps (s : State) : KeepsVocabulary s (eraseCheck s) := .ite of_unchanged of_unchanged

theorem eraseFrameStep_keeps (s : State) : KeepsVocabulary s (eraseFrameStep s) :=
  .ite (.orTransport (issueSse_keeps ..) fun _ => busyWait_keeps ..)
    (.orTransport (issueSe_keeps ..) fun _ => busyWait_keeps ..)

theorem eraseAdvance_keeps (s : State) : KeepsVocabulary s (eraseAdvance s) := .ite of_unchanged of_unchanged

theorem bulkFrame_keeps (s : State) : KeepsVocabulary s (bulkFrame s) :=
  .orTransport (issueBe_keeps s) fun _ => busyWait_keeps ..

theorem verifyCompare_keeps (s : State) : KeepsVocabulary s (verifyCompare s) := by
  unfold verifyCompare
  split <;> exact of_unchanged

theorem verifyAdvance_keeps (s : State) : KeepsVocabulary s (verifyAdvance s) := .ite of_unchanged of_unchanged

theorem deinitCheck_keeps (s : State) : KeepsVocabulary s (deinitCheck s) :=
  have hbus : KeepsVocabulary s (if s.st.bus = .off then s else busDeinit s) := .ite (.refl s) of_unchanged
  hbus.trans of_unchanged

theorem initBus_keeps (s : State) : KeepsVocabulary s (initBus s) :=
  .orTransport (busInit_keeps s) fun _ => of_unchanged

theorem configRead_keeps (s : State) : KeepsVocabulary s (configRead s) :=
  .orTransport (issueRdvcr_keeps s) fun _ => of_unchanged

theorem configWrite_keeps (s : State) : KeepsVocabulary s (configWrite s) :=
  .orTransport (issueWrvcr_keeps _ s) fun _ => of_unchanged

theorem configReadBack_keeps (s : State) : KeepsVocabulary s (configReadBack s) :=
  .orTransport (issueRdvcr_keeps s) fun _ => of_unchanged

theorem configCompare_keeps (s : State) : KeepsVocabulary s (configCompare s) := .ite of_unchanged of_unchanged

theorem statusFrame_keeps (s : State) : KeepsVocabulary s (statusFrame s) :=
  .orTransport (issueRdsr_keeps s) fun _ => of_unchanged

/-! ### The commands -/

theorem execNop_keeps (h : execNop s = .next t) : KeepsVocabulary s t := by
  unfold execNop at h
  split at h <;> cases h
  exact finish_keeps s

theorem execDeinit_keeps (h : execDeinit s = .next t) : KeepsVocabulary s t := by
  unfold execDeinit at h
  split at h <;> cases h
  exact deinitCheck_keeps s

theorem execSystemError_keeps (h : execSystemError s = .next t) : KeepsVocabulary s t := by
  unfold execSystemError at h
  split at h <;> cases h
  exact of_unchanged

theorem execInit_keeps (h : execInit s = .next t) : KeepsVocabulary s t := by
  unfold execInit at h
  split at h
  · cases h; exact .failIf (toPhase_keeps ..)
  · cases h; exact initBus_keeps s
  · cases h; exact welIssue_keeps ..
  · cases h; exact .takeVerdict (toPhase_keeps .frame)
  · split at h <;> cases h
    · exact configRead_keeps s
    · exact configWrite_keeps s
    · exact configReadBack_keeps s
  · cases h; exact configCompare_keeps s
  · cases h

theorem execRead_keeps (h : execRead s = .next t) : KeepsVocabulary s t := by
  unfold execRead at h
  split at h <;> cases h
  · exact .failIf (readCheck_keeps s)
  · exact startRead_keeps ..
  · exact .waitRx finish_keeps

theorem execWrite_keeps (h : execWrite s = .next t) : KeepsVocabulary s t := by
  unfold execWrite at h
  split at h <;> cases h
  · exact .failIf (writeCheck_keeps s)
  · exact welIssue_keeps ..
  · exact .takeVerdict (toPhase_keeps .frame)
  · exact writeFrame_keeps s
  · exact .waitTx (busyWait_keeps _)
  · exact .takeVerdict (toPhase_keeps .advance)
  · exact writeAdvance_keeps s

theorem execErase_keeps (h : execErase s = .next t) : KeepsVocabulary s t := by
  unfold execErase at h
  split at h <;> cases h
  · exact .failIf (eraseCheck_keeps s)
  · exact welIssue_keeps ..
  · exact .takeVerdict (toPhase_keeps .frame)
  · exact eraseFrameStep_keeps s
  · exact .takeVerdict (toPhase_keeps .advance)
  · exact eraseAdvance_keeps s

theorem execBulkErase_keeps (h : execBulkErase s = .next t) : KeepsVocabulary s t := by
  unfold execBulkErase at h
  split at h <;> cases h
  · exact .failIf (toPhase_keeps ..)
  · exact welIssue_keeps ..
  · exact .takeVerdict (toPhase_keeps .frame)
  · exact bulkFrame_keeps s
  · exact .takeVerdict finish_keeps

theorem execEraseVerify_keeps (h : execEraseVerify s = .next t) : KeepsVocabulary s t := by
  unfold execEraseVerify at h
  split at h <;> cases h
  · exact .failIf of_unchanged
  · exact startRead_keeps ..
  · exact .waitRx (toPhase_keeps .compare)
  · exact verifyCompare_keeps s
  · exact verifyAdvance_keeps s

theorem execWriteEnable_keeps (h : execWriteEnable s = .next t) : KeepsVocabulary s t := by
  unfold execWriteEnable at h
  split at h <;> cases h
  · exact .failIf (toPhase_keeps ..)
  · exact welIssue_keeps ..
  · exact .takeVerdict finish_keeps

theorem execReadStatus_keeps (h : execReadStatus s = .next t) : KeepsVocabulary s t := by
  unfold execReadStatus at h
  split at h <;> cases h
  · exact .failIf (toPhase_keeps ..)
  · exact statusFrame_keeps s

theorem exec_keeps {i : Instr} (h : exec i s = .next t) : KeepsVocabulary s t := by
  cases i with
  | nop => exact execNop_keeps h
  | init => exact execInit_keeps h
  | deinit => exact execDeinit_keeps h
  | read => exact execRead_keeps h
  | write => exact execWrite_keeps h
  | erase => exact execErase_keeps h
  | eraseVerify => exact execEraseVerify_keeps h
  | systemError => exact execSystemError_keeps h
  | bulkErase => exact execBulkErase_keeps h
  | writeEnable => exact execWriteEnable_keeps h
  | readStatus => exact execReadStatus_keeps h
  | wren => cases h; exact of_busOnly (respWren_busOnly s)
  | rdsr => cases h; exact of_busOnly (respRdsr_busOnly s)
  | rdvcr => cases h; exact of_busOnly (respRdvcr_busOnly s)
  | wrvcr v => cases h; exact of_busOnly (respWrvcr_busOnly s v)
  | qiofr a k n => cases h; exact of_busOnly (respQiofr_busOnly s ..)
  | eqpp a d => cases h; exact of_busOnly (respEqpp_busOnly s ..)
  | sse a => cases h; exact of_busOnly (respErase_busOnly s ..)
  | se a => cases h; exact of_busOnly (respErase_busOnly s ..)
  | be => cases h; exact of_busOnly (respErase_busOnly s ..)

/-! ### The agents -/

theorem csmStep_keeps (h : csmStep s = .next t) : KeepsVocabulary s t := by
  unfold csmStep at h
  split at h
  · split at h
    · exact exec_keeps h
    · split at h <;> cases h
      exact of_unchanged
  · cases h; exact .refl s

theorem fillRx_keeps (bytes : List Byte) (s : State) :
    KeepsVocabulary s { s with out.busLog := fillRx bytes s.out.busLog } := by
  obtain h | ⟨it, rest, hlog, h⟩ := fillRx_cases bytes s.out.busLog
  · exact of_unchanged rfl h
  · exact .of_head rfl hlog h rfl

theorem fillTx_keeps (bytes : List Byte) (s : State) :
    KeepsVocabulary s { s with out.busLog := fillTx bytes s.out.busLog } := by
  obtain h | ⟨it, rest, hlog, h⟩ := fillTx_cases bytes s.out.busLog
  · exact of_unchanged rfl h
  · exact .of_head rfl hlog h rfl

/-- A completed transfer fills in the data of the newest frame, not its instruction. -/
theorem dmaStep_keeps (s : State) : KeepsVocabulary s (dmaStep s) := by
  unfold dmaStep
  split
  · exact .refl s
  · rename_i dst n a k _
    have hdata : KeepsVocabulary s (respQiofr a k n s) := of_busOnly (respQiofr_busOnly s a k n)
    exact .ite (hdata.trans ((fillRx_keeps _ _).trans (by cases dst <;> exact of_unchanged))) (.refl s)
  · rename_i p n a _
    have hbytes : KeepsVocabulary s (txBytes p.toNat n s).2 := of_busOnly (txBytes_busOnly s p.toNat n)
    have hdata := hbytes.trans (of_busOnly (respEqpp_busOnly _ a (txBytes p.toNat n s).1))
    exact .ite (hdata.trans ((fillTx_keeps _ _).trans of_unchanged)) (.refl s)

theorem sampleStep_keeps (s : State) : KeepsVocabulary s (sampleStep s) := by
  cases hp : s.st.pollActive
  · rw [sampleStep_of_not_active hp]; exact .refl s
  · obtain ⟨v, d, t, -, ht, hstep⟩ := sampleStep_of_active hp
    have hsent : KeepsVocabulary s t := by
      subst ht
      exact of_cons rfl rfl (by simp [Cfg.opcodes])
    rw [hstep]
    split
    · exact hsent
    · exact hsent.trans of_unchanged
    · exact hsent.trans of_unchanged

theorem tickStep_keeps (s : State) : KeepsVocabulary s (tickStep s) := .ite of_unchanged (.refl s)

theorem completeOp_keeps (s : State) : KeepsVocabulary s (completeOp s) := by
  unfold completeOp
  split <;> exact of_unchanged

theorem writeWindow_keeps (off : Nat) (v : Word) (s : State) : KeepsVocabulary s (writeWindow off v s) := by
  unfold writeWindow
  split
  · rename_i r _
    cases r
    case cmd => exact .ite of_unchanged of_unchanged
    all_goals exact of_unchanged
  · exact .refl s

theorem hostLoad_keeps (a : Word) (s : State) : KeepsVocabulary s (hostLoad a s) :=
  have hdraw : KeepsVocabulary s (takeByte s).2 :=
    of_unchanged (takeByte_cfg s) (congrArg Ports.busLog (takeByte_out s))
  .ite (hdraw.trans of_unchanged) of_unchanged

theorem hostAccess_keeps {op : HostOp} (h : hostAccess op s = .next t) : KeepsVocabulary s t := by
  cases op with
  | write off width v =>
    unfold hostAccess at h
    dsimp only at h
    split at h <;> cases h
    exact writeWindow_keeps ..
  | read off width =>
    unfold hostAccess at h
    dsimp only at h
    split at h <;> cases h
    exact of_unchanged
  | wait => cases h; exact .ite of_unchanged of_unchanged
  | store a b => cases h; exact of_unchanged
  | load a => cases h; exact hostLoad_keeps a s

theorem hostStep_keeps (h : hostStep s = .next t) : KeepsVocabulary s t := by
  unfold hostStep at h
  split at h
  · cases h; exact .refl s
  · rename_i op rest _
    have htaken : KeepsVocabulary s { s with env.prog := rest } := of_unchanged
    exact htaken.trans (hostAccess_keeps h)

theorem busStep_keeps (h : busStep s = .next t) : KeepsVocabulary s t := by
  unfold busStep at h
  split at h
  · cases h; exact .refl s
  · rename_i fs _
    have htaken : KeepsVocabulary s { s with env.foreign := fs } := of_unchanged
    split at h
    · exact htaken.trans (exec_keeps h)
    · cases h; exact htaken

theorem cutTransfer_keeps (s : State) : KeepsVocabulary s (cutTransfer s) := by
  rcases hd : s.st.dma with _ | ⟨⟨p⟩ | _, n, a, k⟩ | ⟨p, n, a⟩
  · rw [cutTransfer_idle hd]; exact .refl s
  · obtain ⟨bs, m, d, o, h, -⟩ := cutTransfer_rx hd
    rw [h]; exact of_unchanged
  · rw [cutTransfer_scratch hd]; exact .refl s
  · obtain ⟨d, h⟩ | ⟨m, d, -, -, h⟩ := cutTransfer_tx hd
    · rw [h]; exact of_unchanged
    · have hdraw : KeepsVocabulary s { s with env.draws := d } := of_unchanged
      rw [h]; exact hdraw.trans (of_busOnly (partEqpp_busOnly ..))

theorem blockReset_keeps (s : State) : KeepsVocabulary s (blockReset s) :=
  (cutTransfer_keeps s).trans (of_unchanged (takeBytes_cfg ..) (congrArg Ports.busLog (takeBytes_out ..)))

/-- The step of an agent that does nothing while reset is asserted (R500). -/
theorem keeps_unless_inReset {r : Result} (hr : r = .next t → KeepsVocabulary s t)
    (h : (if s.env.inReset then .next s else r) = .next t) : KeepsVocabulary s t := by
  split at h
  · cases h; exact .refl s
  · exact hr h

theorem act_keeps {a : Agent} (h : act a s = .next t) : KeepsVocabulary s t := by
  cases a with
  | csm => exact keeps_unless_inReset csmStep_keeps h
  | dma => exact keeps_unless_inReset (fun e => by cases e; exact dmaStep_keeps s) h
  | sample => exact keeps_unless_inReset (fun e => by cases e; exact sampleStep_keeps s) h
  | host => exact keeps_unless_inReset hostStep_keeps h
  | tick => cases h; exact tickStep_keeps s
  | device => cases h; exact completeOp_keeps s
  | bus => exact busStep_keeps h
  | resetAssert => exact keeps_unless_inReset (fun e => by cases e; exact blockReset_keeps s) h
  | resetRelease => cases h; exact of_unchanged

/-- Settles O55: taking the agent changes only the schedule and the draws, and every agent's step keeps the parameters
and sends only frames of the nine instructions. -/
theorem stepKeepsConfigAndVocabulary : Obligations.StepKeepsConfigAndVocabulary := by
  intro s s' h
  obtain ⟨a, ag, d, hact⟩ := step_inv h
  have hagent : KeepsVocabulary s { s with env.agenda := ag, env.draws := d } := of_unchanged
  obtain ⟨hcfg, hsends⟩ := hagent.trans (act_keeps hact)
  exact ⟨hcfg, hsends⟩

end Sys2Proof.Proofs
end

section
/-! State (10_state.md): what a step leaves of the two memories, that no step from a controlled state faults, when the
CSM waits, the register window and STATUS, and the reset state. -/

namespace Sys2Proof.Proofs

open Sys2Proof Sys2Proof.Machine Sys2Proof.Spec

/-! ## The memories (R70, R101)

A command's step and a device instruction leave both memories as they are: only a completed or cut transfer, a host store
and the device's completion write one. -/

/-- What the memory invariant speaks of: the parameters, host memory and the array. -/
def memories (s : State) : Cfg × Memory × Memory := (s.cfg, s.mem, s.dev.array)

section Memories

variable {s t : State} {i : Word} {k : State → State} {r : XResult × State}

theorem memoryInv_of_memories (hs : MemoryInv s) (h : memories t = memories s) : MemoryInv t := by
  simp only [memories, Prod.mk.injEq] at h
  obtain ⟨hcfg, hmem, harray⟩ := h
  constructor
  · rw [hmem]; exact hs.mem_wf
  · rw [hmem]; exact hs.mem_below
  · rw [harray]; exact hs.array_wf
  · rw [hcfg, harray]; exact hs.array_below

theorem memories_of_busOnly (h : BusOnly s t) : memories t = memories s := by
  simp only [memories, h.cfg, h.mem, h.array]

theorem memories_of_issued {f : Frame} (h : Issued f s r) : memories r.2 = memories s := by
  simp only [memories, h.cfg, h.mem, h.array]

theorem memories_ite {p : Prop} [Decidable p] {u : State} (ht : memories t = memories s)
    (hu : memories u = memories s) : memories (if p then t else u) = memories s := by split <;> assumption

/-! ### Operations that go on -/

theorem failIf_memories {e : Option CheckFailure} (hk : memories (k s) = memories s) :
    memories (failIf e k s) = memories s := by
  cases e with
  | none => exact hk
  | some c => rfl

theorem orTransport_memories (h : memories r.2 = memories s) (hk : ∀ u, memories (k u) = memories u) :
    memories (orTransport i r k) = memories s := by
  obtain ⟨x, u⟩ := r
  cases x with
  | ok => exact (hk u).trans h
  | xfail => exact h

theorem takeVerdict_memories (hk : ∀ u, memories (k u) = memories u) :
    memories (takeVerdict i k s) = memories s := by
  unfold takeVerdict
  split
  · rfl
  · rfl
  · exact hk _

theorem waitTx_memories (hk : ∀ u, memories (k u) = memories u) : memories (waitTx k s) = memories s :=
  memories_ite (hk _) rfl

theorem waitRx_memories (hk : ∀ u, memories (k u) = memories u) : memories (waitRx k s) = memories s :=
  memories_ite (hk _) rfl

/-! ### Frames, transfers and the bus -/

theorem startDma_memories {d : Dma} {part : Nat → State → State} (hp : ∀ k t, BusOnly t (part k t)) (s : State) :
    memories (startDma d part s).2 = memories s := by
  obtain ⟨s0, h0, h⟩ | ⟨s0, h0, h⟩ := startDma_cases (d := d) hp s <;>
    simp only [h, memories, h0.cfg, h0.mem, h0.array]

theorem busInit_memories (s : State) : memories (busInit s).2 = memories s := by
  have h0 := memories_of_busOnly (takeResult_busOnly s)
  unfold busInit
  dsimp only
  split <;> exact h0

theorem welIssue_memories (i : Word) (s : State) : memories (welIssue i s) = memories s :=
  orTransport_memories (memories_of_issued (issueWren_issued s)) fun _ => rfl

theorem startRead_memories (dst : DmaDst) (n : Nat) (s : State) : memories (startRead dst n s) = memories s :=
  have hcsht : memories (if s.cfg.cshtToggle then { s with st.csht := s.cfg.cshtRead } else s) = memories s :=
    memories_ite rfl rfl
  orTransport_memories ((memories_of_issued (issueQiofr_issued ..)).trans hcsht) fun u =>
    orTransport_memories (startDma_memories (fun _ => BusOnly.refl) u) fun _ => rfl

theorem writeFrame_memories (s : State) : memories (writeFrame s) = memories s :=
  orTransport_memories (memories_of_issued (issueEqpp_issued ..)) fun u =>
    orTransport_memories (startDma_memories (fun k t => partEqpp_busOnly t _ _ _ k) u) fun _ => rfl

theorem eraseFrameStep_memories (s : State) : memories (eraseFrameStep s) = memories s :=
  memories_ite (orTransport_memories (memories_of_issued (issueSse_issued ..)) fun _ => rfl)
    (orTransport_memories (memories_of_issued (issueSe_issued ..)) fun _ => rfl)

/-! ### The commands -/

theorem execDeinit_memories (h : execDeinit s = .next t) : memories t = memories s := by
  unfold execDeinit at h
  split at h <;> cases h
  have hbus : memories (if s.st.bus = .off then s else busDeinit s) = memories s := memories_ite rfl rfl
  exact hbus

theorem execInit_memories (h : execInit s = .next t) : memories t = memories s := by
  unfold execInit at h
  split at h
  · cases h; exact failIf_memories rfl
  · cases h; exact orTransport_memories (busInit_memories s) fun _ => rfl
  · cases h; exact welIssue_memories ..
  · cases h; exact takeVerdict_memories fun _ => rfl
  · split at h <;> cases h
    · exact orTransport_memories (memories_of_issued (issueRdvcr_issued s)) fun _ => rfl
    · exact orTransport_memories (memories_of_issued (issueWrvcr_issued _ s)) fun _ => rfl
    · exact orTransport_memories (memories_of_issued (issueRdvcr_issued s)) fun _ => rfl
  · cases h; exact memories_ite rfl rfl
  · cases h

theorem execRead_memories (h : execRead s = .next t) : memories t = memories s := by
  unfold execRead at h
  split at h <;> cases h
  · exact failIf_memories (memories_ite rfl rfl)
  · exact startRead_memories ..
  · exact waitRx_memories fun _ => rfl

theorem execWrite_memories (h : execWrite s = .next t) : memories t = memories s := by
  unfold execWrite at h
  split at h <;> cases h
  · exact failIf_memories (memories_ite rfl rfl)
  · exact welIssue_memories ..
  · exact takeVerdict_memories fun _ => rfl
  · exact writeFrame_memories s
  · exact waitTx_memories fun _ => rfl
  · exact takeVerdict_memories fun _ => rfl
  · exact memories_ite rfl rfl

theorem execErase_memories (h : execErase s = .next t) : memories t = memories s := by
  unfold execErase at h
  split at h <;> cases h
  · exact failIf_memories (memories_ite rfl rfl)
  · exact welIssue_memories ..
  · exact takeVerdict_memories fun _ => rfl
  · exact eraseFrameStep_memories s
  · exact takeVerdict_memories fun _ => rfl
  · exact memories_ite rfl rfl

theorem execBulkErase_memories (h : execBulkErase s = .next t) : memories t = memories s := by
  unfold execBulkErase at h
  split at h <;> cases h
  · exact failIf_memories rfl
  · exact welIssue_memories ..
  · exact takeVerdict_memories fun _ => rfl
  · exact orTransport_memories (memories_of_issued (issueBe_issued s)) fun _ => rfl
  · exact takeVerdict_memories fun _ => rfl

theorem execEraseVerify_memories (h : execEraseVerify s = .next t) : memories t = memories s := by
  unfold execEraseVerify at h
  split at h <;> cases h
  · exact failIf_memories rfl
  · exact startRead_memories ..
  · exact waitRx_memories fun _ => rfl
  · unfold verifyCompare
    split <;> rfl
  · exact memories_ite rfl rfl

theorem execWriteEnable_memories (h : execWriteEnable s = .next t) : memories t = memories s := by
  unfold execWriteEnable at h
  split at h <;> cases h
  · exact failIf_memories rfl
  · exact welIssue_memories ..
  · exact takeVerdict_memories fun _ => rfl

theorem execReadStatus_memories (h : execReadStatus s = .next t) : memories t = memories s := by
  unfold execReadStatus at h
  split at h <;> cases h
  · exact failIf_memories rfl
  · exact orTransport_memories (memories_of_issued (issueRdsr_issued s)) fun _ => rfl

/-- No instruction's step writes a memory. -/
theorem exec_memories {i : Instr} (h : exec i s = .next t) : memories t = memories s := by
  cases i with
  | nop => dsimp only [exec, execNop] at h; split at h <;> cases h; rfl
  | init => exact execInit_memories h
  | deinit => exact execDeinit_memories h
  | read => exact execRead_memories h
  | write => exact execWrite_memories h
  | erase => exact execErase_memories h
  | eraseVerify => exact execEraseVerify_memories h
  | systemError => dsimp only [exec, execSystemError] at h; split at h <;> cases h; rfl
  | bulkErase => exact execBulkErase_memories h
  | writeEnable => exact execWriteEnable_memories h
  | readStatus => exact execReadStatus_memories h
  | wren => cases h; exact memories_of_busOnly (respWren_busOnly s)
  | rdsr => cases h; exact memories_of_busOnly (respRdsr_busOnly s)
  | rdvcr => cases h; exact memories_of_busOnly (respRdvcr_busOnly s)
  | wrvcr v => cases h; exact memories_of_busOnly (respWrvcr_busOnly s v)
  | qiofr a k n => cases h; exact memories_of_busOnly (respQiofr_busOnly s ..)
  | eqpp a d => cases h; exact memories_of_busOnly (respEqpp_busOnly s ..)
  | sse a => cases h; exact memories_of_busOnly (respErase_busOnly s ..)
  | se a => cases h; exact memories_of_busOnly (respErase_busOnly s ..)
  | be => cases h; exact memories_of_busOnly (respErase_busOnly s ..)

/-! ### The agents that write no memory -/

theorem csmStep_memories (h : csmStep s = .next t) : memories t = memories s := by
  unfold csmStep at h
  split at h
  · split at h
    · exact exec_memories h
    · split at h <;> cases h
      rfl
  · cases h; rfl

theorem busStep_memories (h : busStep s = .next t) : memories t = memories s := by
  unfold busStep at h
  split at h
  · cases h; rfl
  · split at h
    · exact (exec_memories h).trans rfl
    · cases h; rfl

theorem sampleStep_memories (s : State) : memories (sampleStep s) = memories s := by
  cases hp : s.st.pollActive
  · rw [sampleStep_of_not_active hp]
  · obtain ⟨v, d, t, -, ht, hstep⟩ := sampleStep_of_active hp
    rw [hstep, ht]
    split <;> rfl

theorem tickStep_memories (s : State) : memories (tickStep s) = memories s := memories_ite rfl rfl

theorem writeWindow_memories (off : Nat) (v : Word) (s : State) : memories (writeWindow off v s) = memories s := by
  unfold writeWindow
  split
  · rename_i r _
    cases r
    case cmd => exact memories_ite rfl rfl
    all_goals rfl
  · rfl

theorem hostLoad_memories (a : Word) (s : State) : memories (hostLoad a s) = memories s :=
  have hdraw : memories (takeByte s).2 = memories s := by simp [memories]
  memories_ite hdraw rfl

/-! ### The agents that write one -/

/-- A block write below 2^32 keeps host memory canonical. -/
theorem memoryInv_writeList {p : Word} {bs : List Byte} (hp : p.toNat + bs.length ≤ 2 ^ 32) (hs : MemoryInv s) :
    MemoryInv { s with mem := Memory.writeList hostDefault s.mem p.toNat bs } :=
  { hs with mem_wf := Memory.wf_writeList hs.mem_wf bs, mem_below := Memory.below_writeList hs.mem_below hp }

theorem admits_le {c : Cfg} {a n : Nat} (h : admits c a n = true) : a + n ≤ 2 ^ 32 := by
  simp only [admits, Bool.and_eq_true, decide_eq_true_eq] at h
  exact h.1

theorem dmaStep_memoryInv (hs : MemoryInv s) : MemoryInv (dmaStep s) := by
  unfold dmaStep
  split
  · exact hs
  · rename_i dst n a k _
    have hdata := memoryInv_of_memories hs (memories_of_busOnly (respQiofr_busOnly s a k n))
    split
    · rename_i hadm
      cases dst with
      | host p =>
        have hle : p.toNat + (respQiofr a k n s).out.busRx.length ≤ 2 ^ 32 := by
          rw [length_respQiofr_busRx]; exact admits_le hadm
        exact memoryInv_of_memories (memoryInv_writeList hle hdata) rfl
      | scratch => exact memoryInv_of_memories hdata rfl
    · exact hs
  · rename_i p n a _
    have hbytes := memories_of_busOnly (txBytes_busOnly s p.toNat n)
    have hdata := (memories_of_busOnly (respEqpp_busOnly _ a (txBytes p.toNat n s).1)).trans hbytes
    split
    · exact memoryInv_of_memories hs hdata
    · exact hs

theorem completeOp_memoryInv (hs : MemoryInv s) : MemoryInv (completeOp s) := by
  unfold completeOp
  split
  · exact hs
  · rename_i base latch _
    exact { hs with
      array_wf := wf_programBytes hs.array_wf latch
      array_below := below_programBytes hs.array_below latch }
  · rename_i base size _
    exact { hs with
      array_wf := wf_eraseBytes hs.array_wf base size
      array_below := below_eraseBytes hs.array_below base size }

theorem hostStore_memoryInv (a : Word) (b : Byte) (hs : MemoryInv s) : MemoryInv (hostStore a b s) :=
  { hs with
    mem_wf := Memory.wf_write hs.mem_wf
    mem_below := Memory.below_write hs.mem_below a.isLt }

theorem hostAccess_memoryInv {op : HostOp} (h : hostAccess op s = .next t) (hs : MemoryInv s) : MemoryInv t := by
  cases op with
  | write off width v =>
    dsimp only [hostAccess] at h
    split at h <;> cases h
    exact memoryInv_of_memories hs (writeWindow_memories ..)
  | read off width =>
    dsimp only [hostAccess] at h
    split at h <;> cases h
    exact memoryInv_of_memories hs rfl
  | wait => cases h; exact memoryInv_of_memories hs (memories_ite rfl rfl)
  | store a b => cases h; exact hostStore_memoryInv a b hs
  | load a => cases h; exact memoryInv_of_memories hs (hostLoad_memories a s)

theorem hostStep_memoryInv (h : hostStep s = .next t) (hs : MemoryInv s) : MemoryInv t := by
  unfold hostStep at h
  split at h
  · cases h; exact hs
  · exact hostAccess_memoryInv h (memoryInv_of_memories hs rfl)

/-- A cut receive writes a first part that is admitted or empty; a cut transmit writes nothing. -/
theorem cutTransfer_memoryInv (hs : MemoryInv s) : MemoryInv (cutTransfer s) := by
  rcases hd : s.st.dma with _ | ⟨⟨p⟩ | _, n, a, k⟩ | ⟨p, n, a⟩
  · rw [cutTransfer_idle hd]; exact hs
  · obtain ⟨bs, m, d, o, h, hlen, hm, hadm, -⟩ := cutTransfer_rx hd
    have hle : p.toNat + (bs.take m).length ≤ 2 ^ 32 := by
      rw [List.length_take_of_le (hm.trans_eq hlen.symm)]
      rcases Nat.eq_zero_or_pos m with rfl | hpos
      · exact p.isLt.le
      · exact admits_le (hadm hpos)
    rw [h]
    exact memoryInv_of_memories (memoryInv_writeList hle hs) rfl
  · rw [cutTransfer_scratch hd]; exact hs
  · obtain ⟨d, h⟩ | ⟨m, d, -, -, h⟩ := cutTransfer_tx hd
    · rw [h]; exact memoryInv_of_memories hs rfl
    · rw [h]; exact memoryInv_of_memories hs ((memories_of_busOnly (partEqpp_busOnly ..)).trans rfl)

theorem blockReset_memoryInv (hs : MemoryInv s) : MemoryInv (blockReset s) :=
  have hdraw (n : Nat) (u : State) : memories (takeBytes n u).2 = memories u := by simp [memories]
  memoryInv_of_memories (cutTransfer_memoryInv hs) (hdraw s.cfg.sectorSize (cutTransfer s))

/-- The step of an agent that does nothing while reset is asserted (R500). -/
theorem memoryInv_unless_inReset {r : Result} (hr : r = .next t → MemoryInv t) (hs : MemoryInv s)
    (h : (if s.env.inReset then .next s else r) = .next t) : MemoryInv t := by
  split at h
  · cases h; exact hs
  · exact hr h

theorem act_memoryInv {a : Agent} (h : act a s = .next t) (hs : MemoryInv s) : MemoryInv t := by
  cases a with
  | csm => exact memoryInv_unless_inReset (fun e => memoryInv_of_memories hs (csmStep_memories e)) hs h
  | dma => exact memoryInv_unless_inReset (fun e => by cases e; exact dmaStep_memoryInv hs) hs h
  | sample =>
    exact memoryInv_unless_inReset (fun e => by cases e; exact memoryInv_of_memories hs (sampleStep_memories s)) hs h
  | host => exact memoryInv_unless_inReset (fun e => hostStep_memoryInv e hs) hs h
  | tick => cases h; exact memoryInv_of_memories hs (tickStep_memories s)
  | device => cases h; exact completeOp_memoryInv hs
  | bus => exact memoryInv_of_memories hs (busStep_memories h)
  | resetAssert => exact memoryInv_unless_inReset (fun e => by cases e; exact blockReset_memoryInv hs) hs h
  | resetRelease => cases h; exact memoryInv_of_memories hs rfl

end Memories

/-- Settles O49: taking the agent touches no memory, and every agent's step keeps both in canonical form. -/
theorem stepKeepsMemoryCanonical : Obligations.StepKeepsMemoryCanonical := by
  intro s s' hs h
  obtain ⟨a, ag, d, hact⟩ := step_inv h
  exact act_memoryInv hact (memoryInv_of_memories hs rfl)

/-! ## Faults (R44, R45)

A meaning faults only in a phase its command does not have: the control invariant keeps the CSM out of those, and another
agent's frame is a device instruction, which has no phases. -/

section Faults

variable {s : State} {i : Instr} {f : Fault}

theorem isCommand_of_decodeCmd {w : Word} (h : decodeCmd w = .ok i) : i.isCommand = true := by
  unfold decodeCmd at h
  split at h
  · cases h
  · unfold decodeOp at h
    split at h <;> cases h <;> rfl

/-- Either branch of the decoder's choice gives the property. -/
theorem of_ite_ok {P p : Prop} [Decidable p] {x y : Except DecodeError Instr} (hx : x = .ok i → P)
    (hy : y = .ok i → P) (h : (if p then x else y) = .ok i) : P := by
  split at h
  exacts [hx h, hy h]

/-- Row by row of R157: `hy.hy.hy.hx` is WRVCR's, which reads its data byte. -/
theorem not_isCommand_of_decodeFrame {c : Cfg} {g : Frame} (h : decodeFrame c g = .ok i) : i.isCommand = false := by
  unfold decodeFrame at h
  revert h
  repeat' apply of_ite_ok
  all_goals intro h
  case hy.hy.hy.hx => split at h <;> cases h; rfl
  all_goals cases h <;> rfl

/-- A device instruction's meaning is the device's response, in every state. -/
theorem exec_next_of_not_isCommand (hi : i.isCommand = false) (s : State) : ∃ t, exec i s = .next t := by
  cases i with
  | nop | init | deinit | read | write | erase | eraseVerify | systemError | bulkErase | writeEnable | readStatus =>
    cases hi
  | wren | rdsr | rdvcr | wrvcr | qiofr | eqpp | sse | se | be => exact ⟨_, rfl⟩

/-- A command's meaning is a step in CHECK and in every phase its rule gives it; in INIT's FRAME the configure sequence
must have begun. -/
theorem exec_ne_fault (hi : i.isCommand = true) (hp : s.reg.phase ∈ Phase.check :: commandPhases i)
    (hsub : i = .init → s.reg.phase = .frame → s.st.sub ≠ .none) : exec i s ≠ .fault f := by
  intro h
  cases i with
  | nop => dsimp only [exec, execNop] at h; split at h <;> cases h; simp_all [commandPhases]
  | init =>
    dsimp only [exec, execInit] at h
    split at h
    case h_5 hframe => split at h <;> cases h; exact hsub rfl hframe ‹_›
    all_goals cases h
    simp_all [commandPhases]
  | deinit => dsimp only [exec, execDeinit] at h; split at h <;> cases h; simp_all [commandPhases]
  | read => dsimp only [exec, execRead] at h; split at h <;> cases h; simp_all [commandPhases]
  | write => dsimp only [exec, execWrite] at h; split at h <;> cases h; simp_all [commandPhases]
  | erase => dsimp only [exec, execErase] at h; split at h <;> cases h; simp_all [commandPhases]
  | eraseVerify => dsimp only [exec, execEraseVerify] at h; split at h <;> cases h; simp_all [commandPhases]
  | systemError => dsimp only [exec, execSystemError] at h; split at h <;> cases h; simp_all [commandPhases]
  | bulkErase => dsimp only [exec, execBulkErase] at h; split at h <;> cases h; simp_all [commandPhases]
  | writeEnable => dsimp only [exec, execWriteEnable] at h; split at h <;> cases h; simp_all [commandPhases]
  | readStatus => dsimp only [exec, execReadStatus] at h; split at h <;> cases h; simp_all [commandPhases]
  | wren | rdsr | rdvcr | wrvcr | qiofr | eqpp | sse | se | be => cases hi

theorem csmStep_of_not_enabled (h : csmEnabled s = false) : csmStep s = .next s := by simp [csmStep, h]

theorem busy_of_csmEnabled (hc : ControlInv s) (h : csmEnabled s = true) : s.reg.busy = true := by
  rw [hc.busy_iff]
  constructor <;> intro hp <;> simp [csmEnabled, hp] at h

theorem csmStep_ne_fault (hc : ControlInv s) : csmStep s ≠ .fault f := by
  cases hen : csmEnabled s with
  | false => simp [csmStep_of_not_enabled hen]
  | true =>
    by_cases hp : s.reg.phase = .check
    · have hfetch : fetchWord s = s.reg.cmd := if_pos hp
      cases hdec : decodeCmd s.reg.cmd with
      | error e => simp [csmStep, hen, hfetch, hdec, hp]
      | ok i =>
        rw [csmStep_of_decode hen (hfetch ▸ hdec)]
        exact exec_ne_fault (isCommand_of_decodeCmd hdec) (by simp [hp]) (by simp [hp])
    · obtain ⟨i, hop, hphase, -, hsub⟩ := hc.past_check (busy_of_csmEnabled hc hen) hp
      have hdec : decodeCmd (fetchWord s) = .ok i := by rw [fetchWord, if_neg hp, decodeCmd_setWidth, hop]
      rw [csmStep_of_decode hen hdec]
      exact exec_ne_fault (isCommand_of_decodeCmd hdec) (List.mem_cons_of_mem _ hphase) fun hi hframe => by
        simpa [subOk, hframe] using hsub hi

theorem hostStep_ne_fault : hostStep s ≠ .fault f := by
  unfold hostStep
  split
  · exact nofun
  · rename_i op rest _
    cases op with
    | write off width v => dsimp only [hostAccess]; split <;> exact nofun
    | read off width => dsimp only [hostAccess]; split <;> exact nofun
    | wait | store | load => exact nofun

theorem busStep_ne_fault : busStep s ≠ .fault f := by
  unfold busStep
  split
  · exact nofun
  · split
    · rename_i hdec
      obtain ⟨t, ht⟩ := exec_next_of_not_isCommand (not_isCommand_of_decodeFrame hdec) _
      rw [ht]
      exact nofun
    · exact nofun

theorem act_ne_fault {a : Agent} (hc : ControlInv s) : act a s ≠ .fault f := by
  cases a with
  | csm => dsimp only [act]; split; exacts [nofun, csmStep_ne_fault hc]
  | host => dsimp only [act]; split; exacts [nofun, hostStep_ne_fault]
  | bus => exact busStep_ne_fault
  | dma | sample | resetAssert => dsimp only [act]; split <;> exact nofun
  | tick | device | resetRelease => exact nofun

/-- The control invariant speaks of the parameters, the registers and the hidden state only. -/
theorem controlInv_of_eq {t : State} (hs : ControlInv s) (hcfg : t.cfg = s.cfg) (hreg : t.reg = s.reg)
    (hst : t.st = s.st) : ControlInv t := by
  obtain ⟨c, g, h, _, _, _, _⟩ := t
  subst hcfg hreg hst
  exact { hs with }

end Faults

/-- Settles O54: the agent's step is taken under the control invariant, and none faults there. -/
theorem noStepFaults : Obligations.NoStepFaults := by
  rintro s hs ⟨f, hf⟩
  exact act_ne_fault (controlInv_of_eq hs (takeAgent_cfg s) (takeAgent_reg s) (takeAgent_st s)) hf

/-! ## The CSM's waits (R44, R13) -/

/-- Settles O6: in each of those cases the third column of R44 says no, whatever the agenda. -/
theorem csmWaitsForItsCondition : Obligations.CsmWaitsForItsCondition := by
  intro s rest hnext hwait
  have hen : csmEnabled (taken rest s) = false := by
    rcases hwait with hp | hp | ⟨hp, hc⟩ | ⟨hp, hc⟩ | ⟨hp, hc⟩ | ⟨hp, hc⟩ <;> simp [csmEnabled, taken, *]
  rw [step_of_csmNext hnext, csmStep_of_not_enabled hen]

/-! ## The host port: the register window (R32, R33) -/

section Window

variable {s : State} {rest : List Agent} {p : List HostOp} {op : HostOp} {off : Nat}

/-- The host next, out of reset: the step is the host's access. -/
theorem step_of_hostNext (h : hostNext op p s rest) :
    step s = hostAccess op { s with env.agenda := rest, env.prog := p } := by
  obtain ⟨hagenda, hprog, hreset⟩ := h
  rw [step_of_agenda hagenda]
  simp only [act, hreset, Bool.false_eq_true, if_false, hostStep, hprog]

theorem badAccess_eq_none (ha : off % 4 = 0) (hw : off < 256) : badAccess off 4 = none := by
  simp [badAccess, ha, Nat.not_le.2 hw]

theorem badAccess_of_width {width : Nat} (h : width ≠ 4) : badAccess off width = some .badAccessWidth := by
  simp [badAccess, h]

theorem badAccess_of_alignment (h : off % 4 ≠ 0) : badAccess off 4 = some .badAccessAlignment := by
  simp [badAccess, h]

theorem hostAccess_write {v : Word} (h : badAccess off 4 = none) (s : State) :
    hostAccess (.write off 4 v) s = .next (writeWindow off v s) := by simp only [hostAccess, h]

theorem hostAccess_read (h : badAccess off 4 = none) (s : State) :
    hostAccess (.read off 4) s = .next (hostRead off s) := by simp only [hostAccess, h]

theorem offset_of_regAt {r : RegName} (h : regAt off = some r) : off = r.offset := by
  unfold regAt at h
  split at h <;> cases h <;> rfl

theorem regAt_reserved (h : 0x60 ≤ off) : regAt off = none := by
  have hlt (r : RegName) : r.offset < 0x60 := by cases r <;> decide
  cases hr : regAt off with
  | none => rfl
  | some r => exact absurd (offset_of_regAt hr ▸ hlt r) (Nat.not_lt.2 h)

theorem readWindow_reserved (h : 0x60 ≤ off) (s : State) : readWindow off s = 0 := by
  simp only [readWindow, regAt_reserved h]

theorem writeReg_readOnly {r : RegName} (h : 0x24 ≤ r.offset) (v : Word) (s : State) : writeReg r v s = s := by
  cases r with
  | ctrl | cmd | addr | ptr | wcount | block | count | ecode | status => exact absurd h (by decide)
  | _ => rfl

theorem writeWindow_readOnly (h : 0x24 ≤ off) (v : Word) (s : State) : writeWindow off v s = s := by
  unfold writeWindow
  split
  · rename_i r hr
    exact writeReg_readOnly (offset_of_regAt hr ▸ h) v s
  · rfl

/-- CTRL holds bits 1:0 of what was written, the reserved bits read zero (R34). -/
theorem readWindow_writeWindow_ctrl (v : Word) (s : State) : readWindow 0x00 (writeWindow 0x00 v s) = v &&& 3 := by
  change 0#30 ++ BitVec.ofBool (v.getLsbD 1) ++ BitVec.ofBool (v.getLsbD 0) = v &&& 3
  refine BitVec.eq_of_getLsbD_eq fun i hi => ?_
  rw [BitVec.getLsbD_append, BitVec.getLsbD_append]
  interval_cases i <;> simp

theorem ctrlWord_eq (r : Regs) : ctrlWord r = (if r.haltOnErr then 2 else 0) + if r.ie then 1 else 0 := by
  unfold ctrlWord
  cases r.haltOnErr <;> cases r.ie <;> rfl

/-- Each register of R33 is read at its offset. -/
theorem readWindow_of_mem_registers : ∀ e ∈ registers s, readWindow e.1 s = e.2 := by
  simp only [registers, List.forall_mem_cons]
  refine ⟨ctrlWord_eq s.reg, ?_⟩
  repeat' constructor
  simp

/-! ### STATUS (R42 to R44, R451) and the IRQ level (R54) -/

theorem statusWord_flags (r : Regs) :
    (statusWord r).getLsbD 0 = r.busy ∧ (statusWord r).getLsbD 1 = r.done ∧ (statusWord r).getLsbD 2 = r.err ∧
      (statusWord r).getLsbD 3 = r.ovr ∧ (statusWord r).getLsbD 4 = decide (r.phase = .halted) := by
  simp only [statusWord, bit, BitVec.getLsbD_append]
  simp [Regs.halted]

/-- The fields above the flags, each stripped of the fields below it. -/
theorem statusWord_fields (r : Regs) :
    (statusWord r).extractLsb' 5 3 = 0 ∧ (statusWord r).extractLsb' 8 4 = r.initState.code ∧
      (statusWord r).extractLsb' 12 4 = 0 ∧ (statusWord r).extractLsb' 16 8 = r.errcode.code ∧
      (statusWord r).extractLsb' 24 5 = r.phase.code ∧ (statusWord r).extractLsb' 29 3 = 0 := by
  unfold statusWord
  refine ⟨?_, ?_, ?_, ?_, ?_, ?_⟩
  all_goals repeat rw [BitVec.extractLsb'_append_eq_of_le (by decide)]
  case refine_6 => rfl
  all_goals exact BitVec.extractLsb'_append_eq_right

/-- Clearing DONE drops the level. -/
theorem irq_of_clear_done {v : Word} (h : v.getLsbD 1 = true) (s : State) : irq (writeWindow 0x20 v s) = false := by
  change (s.reg.ie && (s.reg.done && !v.getLsbD 1)) = false
  simp [h]

/-- Clearing IE drops the level. -/
theorem irq_of_clear_ie {v : Word} (h : v.getLsbD 0 = false) (s : State) : irq (writeWindow 0x00 v s) = false := by
  change (v.getLsbD 0 && s.reg.done) = false
  rw [h, Bool.false_and]

/-- The wait access reads STATUS and is done with once bit 1 of the value is 1 (R163). -/
theorem step_wait (h : hostNext .wait p s rest) :
    step s = .next { s with
      env.agenda := rest
      env.prog := if (statusWord s.reg).getLsbD 1 = true then p else .wait :: p
      out.hostRd := statusWord s.reg } := by
  obtain ⟨-, hdone, -⟩ := statusWord_flags s.reg
  rw [step_of_hostNext h, hdone]
  cases hd : s.reg.done <;> simp only [hostAccess, hd] <;> rfl

end Window

/-- Settles O10: the access is a write of the window, and the register at the offset says what that changes. -/
theorem registerWritesTakeEffect : Obligations.RegisterWritesTakeEffect := by
  intro s rest p off v
  refine ⟨fun hnext => ⟨_, rfl, ?_⟩, fun hoff => ?_, readWindow_writeWindow_ctrl v s,
    fun h => readWindow_reserved h s⟩
  · have hstep (ha : off % 4 = 0) (hw : off < 256) :
        step s = .next (writeWindow off v { s with env.agenda := rest, env.prog := p }) := by
      rw [step_of_hostNext hnext, hostAccess_write (badAccess_eq_none ha hw)]
    refine ⟨?_, ?_, ?_, ?_, ?_, ?_, ?_, fun hro hw ha => ?_⟩
    case refine_8 => rw [hstep ha hw, writeWindow_readOnly hro]
    all_goals rintro rfl; exact hstep rfl (by decide)
  · simp only [List.mem_cons, List.not_mem_nil, or_false] at hoff
    rcases hoff with rfl | rfl | rfl | rfl | rfl | rfl <;> rfl

/-- Settles O11: the access is a read of the window, a refusal, or the read of STATUS that repeats itself. -/
theorem hostReadHasNoSideEffect : Obligations.HostReadHasNoSideEffect := by
  intro s rest p off width v
  refine ⟨fun hnext hwidth ha hw => ?_, fun hnext => ?_, fun hnext => ⟨_, rfl, step_wait hnext⟩⟩
  · subst hwidth
    refine ⟨readWindow off s, ?_, rfl, readWindow_of_mem_registers _, fun h => readWindow_reserved h s⟩
    rw [step_of_hostNext hnext, hostAccess_read (badAccess_eq_none ha hw)]
    rfl
  · have hbad {r : Refusal} (h : badAccess off width = some r) : step s = .refused r := by
      rcases hnext with hnext | hnext <;> rw [step_of_hostNext hnext] <;> simp only [hostAccess, h]
    exact ⟨fun hwidth => hbad (badAccess_of_width hwidth),
      fun hwidth ha => hbad (by rw [hwidth, badAccess_of_alignment ha])⟩

/-- Settles O12: the flags bit by bit, the other fields by their place, the codes by R42 to R44 and R451. -/
theorem statusFieldsAndIrq : Obligations.StatusFieldsAndIrq := by
  intro s
  obtain ⟨hbusy, hdone, herr, hovr, hhalted⟩ := statusWord_flags s.reg
  obtain ⟨hrsv5, hinit, hrsv12, hcode, hphase, hrsv29⟩ := statusWord_fields s.reg
  exact ⟨hbusy, hdone, herr, hovr, hhalted, hrsv5, hinit, hrsv12, hcode, hphase, hrsv29, rfl,
    fun _ h => irq_of_clear_done h s, fun _ h => irq_of_clear_ie h s, by decide⟩

/-! ## Reset (R80 to R82) -/

/-- Both memories list nothing. -/
theorem reset_memoryInv : MemoryInv State.reset := ⟨⟨.nil, nofun⟩, nofun, ⟨.nil, nofun⟩, nofun⟩

/-- No command runs, no transfer is in flight, the bus is off. -/
theorem reset_controlInv : ControlInv State.reset := by
  constructor <;> simp [State.reset, Regs.reset, Hidden.reset]

/-- Settles O53: EX1 is valid, the memories are empty, no command runs and no frame has been sent. -/
theorem resetMeetsTheInvariants : Obligations.ResetMeetsTheInvariants := by
  refine ⟨Cfg.ex1_valid, reset_memoryInv, reset_controlInv, ⟨reset_controlInv, nofun, nofun⟩,
    ⟨reset_controlInv, trivial, nofun, nofun, fun h => ?_⟩, nofun⟩
  obtain ⟨hphase, -⟩ := h
  cases hphase

end Sys2Proof.Proofs
end

section
/-! Encoding (30_encoding.md): the opcode table's words, that decoder and encoder are each other's inverse, and the step
on another agent's frame.

Each row of R157 is said once, as the decoder's two checks of a frame being the encoder's frame of that row; the two
directions of the inverse both go through these lemmas. -/

namespace Sys2Proof.Proofs

open Sys2Proof Sys2Proof.Machine Sys2Proof.Spec

/-! ## The host command word (R151 to R153) -/

section Command

variable {w : Word} {op : BitVec 4} {i : Instr}

theorem decodeCmd_of_encodeCmd (h : encodeCmd i = some w) : decodeCmd w = .ok i := by
  cases i <;> cases h <;> rfl

theorem encodeCmd_of_decodeOp (h : decodeOp op = .ok i) : encodeCmd i = some (w32 op.toNat) := by
  unfold decodeOp at h
  split at h <;> cases h <;> simp only [‹op.toNat = _›] <;> rfl

/-- With RSV zero the word is its OP field (R151). -/
theorem w32_cmdOp (h : cmdRsv w = 0) : w32 (cmdOp w).toNat = w := by
  have hrsv : w.toNat >>> 4 % 2 ^ 28 = 0 := by simpa [cmdRsv] using congrArg BitVec.toNat h
  apply BitVec.eq_of_toNat_eq
  simp only [cmdOp, BitVec.toNat_ofNat, BitVec.toNat_setWidth]
  omega

theorem encodeCmd_of_decodeCmd (h : decodeCmd w = .ok i) : encodeCmd i = some w := by
  unfold decodeCmd at h
  split at h
  · cases h
  · rw [encodeCmd_of_decodeOp h, w32_cmdOp (not_not.mp ‹_›)]

/-- Every command is well formed: it has no operands (R151). -/
theorem wf_of_encodeCmd (h : encodeCmd i = some w) : i.wf = true := by
  cases i <;> cases h <;> rfl

end Command

/-! ## The rows of R157 -/

section Rows

variable {f : Frame} {opc v : Byte} {a : Off24} {k : BitVec 5} {n : Word} {data : List Byte}

theorem bareFrame_eq_iff : bareFrame opc = f ↔ f.instr = opc ∧ f.isBare = true := by
  cases f; grind [Frame.isBare, Frame.noAddr, Frame.noData, bareFrame]

theorem eraseFrame_eq_iff : eraseFrame opc a = f ↔ f.instr = opc ∧ f.isErase = true ∧ f.addr = a := by
  cases f; grind [Frame.isErase, Frame.noData, eraseFrame, bareFrame]

theorem regInFrame_eq_iff : regInFrame opc = f ↔ f.instr = opc ∧ f.isRegIn = true := by
  cases f; grind [Frame.isRegIn, Frame.noAddr, regInFrame, bareFrame]

theorem regOutFrame_eq_iff : regOutFrame opc v = f ↔ f.instr = opc ∧ f.isRegOut = true ∧ f.payload = [v] := by
  cases f; grind [Frame.isRegOut, Frame.noAddr, regOutFrame, bareFrame]

theorem quadInFrame_eq_iff : quadInFrame opc a k n = f ↔
    f.instr = opc ∧ f.isQuadIn = true ∧ f.addr = a ∧ f.dummy = k ∧ f.nbytes = n := by
  cases f; grind [Frame.isQuadIn, quadInFrame, bareFrame]

theorem quadOutFrame_eq_iff : quadOutFrame opc a n data = f ∧ data.length = n.toNat ↔
    f.instr = opc ∧ f.isQuadOut = true ∧ f.addr = a ∧ f.nbytes = n ∧ f.payload = data := by
  cases f; grind [Frame.isQuadOut, quadOutFrame, bareFrame]

end Rows

/-! ## The quad-SPI frame (R155 to R159) -/

section FrameCode

variable {c : Cfg} {f : Frame} {i : Instr}

/-- The cases in the order of R157; in each the frame is the row's, by the decoder's own two checks. -/
theorem encodeFrame_of_decodeFrame (h : decodeFrame c f = .ok i) : encodeFrame c i = some f ∧ i.wf = true := by
  unfold decodeFrame at h
  repeat' split at h
  all_goals cases h
  next hinstr hshape => exact ⟨congrArg some (bareFrame_eq_iff.mpr ⟨hinstr, hshape⟩), rfl⟩
  next hinstr hshape => exact ⟨congrArg some (regInFrame_eq_iff.mpr ⟨hinstr, hshape⟩), rfl⟩
  next hinstr hshape => exact ⟨congrArg some (regInFrame_eq_iff.mpr ⟨hinstr, hshape⟩), rfl⟩
  next hinstr _ _ _ hshape hv => exact ⟨congrArg some (regOutFrame_eq_iff.mpr ⟨hinstr, hshape, hv⟩), rfl⟩
  next hinstr hshape hn =>
    exact ⟨congrArg some (quadInFrame_eq_iff.mpr ⟨hinstr, hshape, rfl, rfl, rfl⟩), bne_iff_ne.mpr hn⟩
  next hinstr hshape hn =>
    obtain ⟨hf, hlen⟩ := quadOutFrame_eq_iff.mpr ⟨hinstr, hshape, rfl, rfl, rfl⟩
    constructor
    · simpa [encodeFrame, hlen, w32] using hf
    · have hpos : f.nbytes.toNat ≠ 0 := fun h0 => hn (BitVec.eq_of_toNat_eq h0)
      simpa [Instr.wf, hlen, hpos] using f.nbytes.isLt
  next hinstr hshape => exact ⟨congrArg some (eraseFrame_eq_iff.mpr ⟨hinstr, hshape, rfl⟩), rfl⟩
  next hinstr hshape => exact ⟨congrArg some (eraseFrame_eq_iff.mpr ⟨hinstr, hshape, rfl⟩), rfl⟩
  next hinstr hshape => exact ⟨congrArg some (bareFrame_eq_iff.mpr ⟨hinstr, hshape⟩), rfl⟩

/-- The frame passes its row's checks, and no row before it is picked: the opcodes are distinct (R158). -/
theorem decodeFrame_of_encodeFrame (hv : c.Valid) (hwf : i.wf = true) (h : encodeFrame c i = some f) :
    decodeFrame c f = .ok i := by
  have hne := List.nodup_reverse.mpr hv.opcodes_distinct
  simp only [Cfg.opcodes, List.nodup_iff_pairwise_ne, List.reverse_cons, List.reverse_nil, List.nil_append,
    List.cons_append, List.pairwise_cons, List.forall_mem_cons] at hne
  cases i with
  | nop | init | deinit | read | write | erase | eraseVerify | systemError | bulkErase | writeEnable | readStatus =>
    cases h
  | wren =>
    obtain ⟨hinstr, hshape⟩ := bareFrame_eq_iff.mp (Option.some.inj h)
    simp [decodeFrame, hinstr, hshape]
  | rdsr =>
    obtain ⟨hinstr, hshape⟩ := regInFrame_eq_iff.mp (Option.some.inj h)
    simp [decodeFrame, hinstr, hshape, hne]
  | rdvcr =>
    obtain ⟨hinstr, hshape⟩ := regInFrame_eq_iff.mp (Option.some.inj h)
    simp [decodeFrame, hinstr, hshape, hne]
  | wrvcr v =>
    obtain ⟨hinstr, hshape, hpayload⟩ := regOutFrame_eq_iff.mp (Option.some.inj h)
    simp [decodeFrame, hinstr, hshape, hpayload, hne]
  | qiofr a k n =>
    obtain ⟨hinstr, hshape, rfl, rfl, rfl⟩ := quadInFrame_eq_iff.mp (Option.some.inj h)
    have hn : f.nbytes ≠ 0#32 := bne_iff_ne.mp hwf
    simp [decodeFrame, hinstr, hshape, hn, hne]
  | eqpp a data =>
    obtain ⟨hpos, hlt⟩ : data.length ≠ 0 ∧ data.length < 2 ^ 32 := by simpa [Instr.wf] using hwf
    have hlen : data.length = (w32 data.length).toNat := (Nat.mod_eq_of_lt hlt).symm
    obtain ⟨hinstr, hshape, rfl, hnbytes, rfl⟩ := quadOutFrame_eq_iff.mp ⟨Option.some.inj h, hlen⟩
    have hn : f.nbytes ≠ 0#32 := fun h0 => hpos (by rw [hlen, ← hnbytes, h0]; rfl)
    simp [decodeFrame, hinstr, hshape, hn, hne]
  | sse a =>
    obtain ⟨hinstr, hshape, rfl⟩ := eraseFrame_eq_iff.mp (Option.some.inj h)
    simp [decodeFrame, hinstr, hshape, hne]
  | se a =>
    obtain ⟨hinstr, hshape, rfl⟩ := eraseFrame_eq_iff.mp (Option.some.inj h)
    simp [decodeFrame, hinstr, hshape, hne]
  | be =>
    obtain ⟨hinstr, hshape⟩ := bareFrame_eq_iff.mp (Option.some.inj h)
    simp [decodeFrame, hinstr, hshape, hne]

end FrameCode

/-! ## Either kind of item (R150) -/

section Item

variable {c : Cfg} {e : Encoded} {w : Word} {f : Frame} {i : Instr}

theorem exists_encode (c : Cfg) (i : Instr) : ∃ e, encode c i = some e := by cases i <;> exact ⟨_, rfl⟩

theorem encode_eq_cmd_iff : encode c i = some (.cmd w) ↔ encodeCmd i = some w := by
  cases i <;> simp [encode, encodeCmd, encodeFrame]

theorem encode_eq_frame_iff : encode c i = some (.frame f) ↔ encodeFrame c i = some f := by
  cases i <;> simp [encode, encodeCmd, encodeFrame]

theorem decode_of_encode (hv : c.Valid) (hwf : i.wf = true) (h : encode c i = some e) : decode c e = .ok i := by
  cases e with
  | cmd w => exact decodeCmd_of_encodeCmd (encode_eq_cmd_iff.mp h)
  | frame f => exact decodeFrame_of_encodeFrame hv hwf (encode_eq_frame_iff.mp h)

theorem encode_of_decode (h : decode c e = .ok i) : encode c i = some e ∧ i.wf = true := by
  cases e with
  | cmd w =>
    have henc := encodeCmd_of_decodeCmd h
    exact ⟨encode_eq_cmd_iff.mpr henc, wf_of_encodeCmd henc⟩
  | frame f =>
    obtain ⟨henc, hwf⟩ := encodeFrame_of_decodeFrame h
    exact ⟨encode_eq_frame_iff.mpr henc, hwf⟩

end Item

/-- Settles O2: every instruction has an item, and the decoder finds its row by the distinct opcodes. -/
theorem decodeEncodeRoundTrip : Obligations.DecodeEncodeRoundTrip := by
  intro c i hv hwf
  obtain ⟨e, he⟩ := exists_encode c i
  exact ⟨e, he, decode_of_encode hv hwf he⟩

/-- Settles O3: the decoder's checks leave a word or a frame no freedom beyond the operands. -/
theorem encodingIsUnique : Obligations.EncodingIsUnique := fun _ _ _ => encode_of_decode

/-- Settles O1: each word is decoded by evaluation, an instruction byte under EX1's opcodes. -/
theorem tableWordsDecode : Obligations.TableWordsDecode := by
  unfold Obligations.TableWordsDecode
  decide

/-! ## Another agent's frame (R307, R518, R251) -/

section Bus

variable {s : State} {f : Frame} {fs : List Frame} {rest : List Agent}

/-- The bus next: the step is the bus's, in reset too. -/
theorem step_of_busNext (h : s.env.agenda = .bus :: rest) : step s = busStep (taken rest s) := step_of_agenda h

theorem busStep_of_decode {i : Instr} (hf : s.env.foreign = f :: fs) (hi : decodeFrame s.cfg f = .ok i) :
    busStep s = exec i { s with env.foreign := fs } := by simp only [busStep, hf, hi]

theorem busStep_of_undecoded {e : DecodeError} (hf : s.env.foreign = f :: fs) (he : decodeFrame s.cfg f = .error e) :
    busStep s = .next { s with env.foreign := fs } := by simp only [busStep, hf, he]

end Bus

/-- Settles O5: the frame is decoded under the same parameters whatever the agenda. -/
theorem stepRunsTheDecodedFrame : Obligations.StepRunsTheDecodedFrame := by
  intro s rest f fs hagenda hforeign
  rw [step_of_busNext hagenda]
  exact ⟨fun _ hi => busStep_of_decode hforeign hi, fun _ he => busStep_of_undecoded hforeign he⟩

end Sys2Proof.Proofs
end

section
/-! Transport (40_transport.md): the waits for the completion flags, the DMA completion, the sample step, the tick, and
that on a fair run a poll and an operation of the device end. -/

namespace Sys2Proof.Proofs

open Sys2Proof Sys2Proof.Machine Sys2Proof.Spec

/-! ## The waits (R212) -/

section Waits

variable {s : State} {k : State → State}

theorem waitRx_of_rc (h : s.st.rc = true) :
    waitRx k s = k { s with st.rc := false, st.csht := s.cfg.cshtDefault } := if_pos h

theorem waitTx_of_tc (h : s.st.tc = true) : waitTx k s = k { s with st.tc := false } := if_pos h

end Waits

/-- Settles O28: in its wait phase each command's step is the wait with the command's own continuation. -/
theorem waitStepsConsumeTheFlag : Obligations.WaitStepsConsumeTheFlag := by
  refine fun s => ⟨fun hp hrc => ⟨?_, ?_⟩, fun hp htc => ?_⟩
  · simp only [exec, execRead, hp, waitRx_of_rc hrc]; rfl
  · simp only [exec, execEraseVerify, hp, waitRx_of_rc hrc]; rfl
  · simp only [exec, execWrite, hp, waitTx_of_tc htc]; rfl

/-! ## The DMA completion (R208) -/

section DmaCompletion

variable {s : State} {rest : List Agent} {dst : DmaDst} {p : Word} {n : Nat} {a : Off24} {k : BitVec 5}

theorem act_dma (hr : s.env.inReset = false) : act .dma s = .next (dmaStep s) := by simp [act, hr]

/-- The DMA next, out of reset: the step is the transfer's completion. -/
theorem step_of_dmaNext (ha : s.env.agenda = .dma :: rest) (hr : s.env.inReset = false) :
    step s = .next (dmaStep (taken rest s)) := (step_of_agenda ha).trans (act_dma hr)

theorem dmaStep_idle (h : s.st.dma = .idle) : dmaStep s = s := by simp only [dmaStep, h]

/-- A receive that is not admitted has no completion (R101, R211). -/
theorem dmaStep_rx_refused (h : s.st.dma = .rx dst n a k) (hadm : dstAdmitted s.cfg n dst = false) :
    dmaStep s = s := by simp [dmaStep, h, hadm]

/-- A transmit that is not admitted has no completion (R101, R211). -/
theorem dmaStep_tx_refused (h : s.st.dma = .tx p n a) (hadm : admits s.cfg p.toNat n = false) : dmaStep s = s := by
  simp [dmaStep, h, hadm]

/-- An admitted receive: the bytes that the QIOFR drives go to their destination and into the open frame. -/
theorem dmaStep_rx_shape (h : s.st.dma = .rx dst n a k) (hadm : dstAdmitted s.cfg n dst = true) :
    ∃ bs d, bs.length = n ∧
      (s.dev.op = .none → vcrDummy s.cfg s.dev.vcr = k.toNat → bs = flashBytes s a.toNat n) ∧
      dmaStep s =
        { deposit dst bs { s with env.draws := d, out.busRx := bs } with
          st.rc := true
          st.dma := .idle
          out.busLog := fillRx bs s.out.busLog } := by
  obtain ⟨bs, d, hresp, hlen, hbs⟩ := respQiofr_shape a k n s
  refine ⟨bs, d, hlen, hbs, ?_⟩
  simp only [dmaStep, h, hadm, if_true, hresp]

/-- An admitted transmit: the bytes that leave host memory are the EQPP's and the open frame's. -/
theorem dmaStep_tx (h : s.st.dma = .tx p n a) (hadm : admits s.cfg p.toNat n = true) :
    dmaStep s =
      { respEqpp a (txBytes p.toNat n s).1 (txBytes p.toNat n s).2 with
        st.tc := true
        st.dma := .idle
        out.busLog := fillTx (txBytes p.toNat n s).1 s.out.busLog } := by
  have hlog := (txBytes_busOnly s p.toNat n).log
  simp only [dmaStep, h, hadm, if_true, respEqpp_busLog, hlog]

end DmaCompletion

/-- Settles O44: an admitted receive is a block write of host memory or a new front of the scratch buffer. -/
theorem dmaReceiveCompletes : Obligations.DmaReceiveCompletes := by
  intro s rest dst n a k hmem hagenda hreset hdma
  rw [step_of_dmaNext hagenda hreset]
  refine ⟨?_, ?_, ?_⟩
  · rintro p rfl hadm
    rw [dmaStep_rx_refused (s := taken rest s) hdma hadm]
  · rintro p rfl hadm
    obtain ⟨bs, d, hlen, hbs, hstep⟩ := dmaStep_rx_shape (s := taken rest s) hdma hadm
    have hread := Memory.read_writeList (a := p.toNat) hmem.mem_wf bs
    rw [hlen] at hread
    rw [hstep]
    exact ⟨_, bs, rfl, rfl, hlen, hbs, hread, rfl, rfl, rfl, rfl, rfl⟩
  · rintro rfl
    obtain ⟨bs, d, hlen, hbs, hstep⟩ := dmaStep_rx_shape (s := taken rest s) hdma rfl
    rw [hstep]
    refine ⟨_, bs, rfl, rfl, hlen, hbs, ?_, rfl, rfl, rfl, rfl, rfl⟩
    rw [← hlen]
    rfl

/-- Settles O45: the bytes that leave host memory are the data of the EQPP the device answers. -/
theorem dmaTransmitCompletes : Obligations.DmaTransmitCompletes := by
  intro s rest p n a hagenda hreset hdma
  rw [step_of_dmaNext hagenda hreset]
  constructor
  · intro hadm
    rw [dmaStep_tx_refused (s := taken rest s) hdma hadm]
  · intro hadm
    obtain ⟨d, hdraws, hmoved⟩ := txBytes_shape (taken rest s) p.toNat n
    rw [dmaStep_tx (s := taken rest s) hdma hadm, hdraws]
    refine ⟨_, d, _, ⟨length_txBytes (taken rest s) p.toNat n, hmoved⟩, rfl, rfl, fun hclean => ?_⟩
    have hsame := txBytes_clean (taken rest s) p.toNat n hclean
    rw [hsame] at hdraws ⊢
    exact ⟨rfl, congrArg (fun t => t.env.draws) hdraws.symm⟩

/-! ## The sample step (R220, R221) -/

section Sample

variable {s : State} {rest : List Agent} {m target : Byte} {budget elapsed : Word} {sr : Byte}

theorem act_sample (hr : s.env.inReset = false) : act .sample s = .next (sampleStep s) := by simp [act, hr]

/-- The sequencer next, out of reset: the step is the sample step. -/
theorem step_of_sampleNext (ha : s.env.agenda = .sample :: rest) (hr : s.env.inReset = false) :
    step s = .next (sampleStep (taken rest s)) := (step_of_agenda ha).trans (act_sample hr)

theorem voter_of_match (h : sr &&& m = target) : voter m target budget elapsed sr = .matched := if_pos h

theorem voter_of_elapsed (h : sr &&& m ≠ target) (hb : budget ≤ elapsed) :
    voter m target budget elapsed sr = .timeout := by rw [voter, if_neg h, if_pos hb]

theorem voter_of_not_elapsed (h : sr &&& m ≠ target) (hb : ¬ budget ≤ elapsed) :
    voter m target budget elapsed sr = .none := by rw [voter, if_neg h, if_neg hb]

/-- Once the budget has elapsed every sample decides. -/
theorem voter_ne_none (hb : budget ≤ elapsed) : voter m target budget elapsed sr ≠ .none := by
  by_cases h : sr &&& m = target
  · rw [voter_of_match h]; exact nofun
  · rw [voter_of_elapsed h hb]; exact nofun

end Sample

/-- Settles O46: the voter's three cases on the byte that the status read drove. -/
theorem sampleStepVotes : Obligations.SampleStepVotes := by
  intro s rest hagenda hreset hactive
  obtain ⟨sr, d, t, hsr, ht, hstep⟩ := sampleStep_of_active (s := taken rest s) hactive
  rw [step_of_sampleNext hagenda hreset, hstep]
  refine ⟨sr, d, hsr, t, ht, fun hm => ?_, fun hm hb => ?_, fun hm hb => ?_⟩
  · simp only [taken, voter_of_match hm]
  · simp only [taken, voter_of_elapsed hm hb]
  · simp only [taken, voter_of_not_elapsed hm hb]

/-! ## The tick (R222, R263) -/

section Tick

variable {s : State}

theorem maxLatency_of_running {c : Cfg} {op : DevOp} (h : op ≠ .none) : maxLatency c op = some (tmax c op) := by
  cases op with
  | none => exact absurd rfl h
  | program => rfl
  | erase kind => cases kind <;> rfl

/-- R263's guard: only where latencies are bounded, and only a running operation at its maximum, stops the tick. -/
theorem tickEnabled_eq_false_iff :
    tickEnabled s = false ↔
      s.cfg.devLatencyBounded = true ∧ s.dev.op ≠ .none ∧ tmax s.cfg s.dev.op ≤ s.dev.age.toNat := by
  by_cases h : s.dev.op = .none
  · simp [tickEnabled_of_idle h, h]
  · simp [tickEnabled, maxLatency_of_running h, h]

theorem tickStep_of_disabled (h : tickEnabled s = false) : tickStep s = s := by simp [tickStep, h]

theorem tickStep_of_enabled (h : tickEnabled s = true) :
    tickStep s =
      { s with
        st.pollElapsed := if s.st.pollActive then satSucc s.st.pollElapsed else s.st.pollElapsed
        dev.age := if s.dev.op ≠ .none then s.dev.age + 1 else s.dev.age } := if_pos h

theorem toNat_satSucc (w : Word) : (satSucc w).toNat = min (w.toNat + 1) 0xFFFFFFFF := by
  unfold satSucc
  split
  · simp_all
  · bv_omega

end Tick

/-! ## A running poll goes on or ends (R217, R221)

While a poll runs the CSM waits for its verdict and the host can neither start nor release a command, so only the
sequencer and the reset input end it. -/

/-- A poll runs, its command waiting in a poll phase. -/
structure Polling (s : State) : Prop where
  active : s.st.pollActive = true
  verdict : s.st.verdict = .none
  busy : s.reg.busy = true
  phase : s.reg.phase = .welPoll ∨ s.reg.phase = .busyPoll

/-- What a running poll rests on is kept; its time does not go back. -/
structure PollGoesOn (s t : State) : Prop where
  active : t.st.pollActive = s.st.pollActive
  verdict : t.st.verdict = s.st.verdict
  budget : t.st.pollBudget = s.st.pollBudget
  busy : t.reg.busy = s.reg.busy
  phase : t.reg.phase = s.reg.phase
  elapsed : s.st.pollElapsed.toNat ≤ t.st.pollElapsed.toNat

/-- The poll has ended: with a verdict, or by reset. -/
def PollEnded (t : State) : Prop := t.st.pollActive = false ∧ (t.st.verdict ≠ .none ∨ t.env.inReset = true)

section Poll

variable {s t u : State}

theorem polling_of_control (hc : ControlInv s) (h : s.st.pollActive = true) : Polling s where
  active := h
  verdict := hc.poll_verdict h
  busy := hc.busy_iff.mpr (by rcases hc.poll_phase h with hp | hp <;> simp [hp])
  phase := hc.poll_phase h

namespace PollGoesOn

/-- An update of other fields keeps the poll by `rfl`. -/
theorem of_eq (hreg : t.reg = s.reg := by rfl) (hst : t.st = s.st := by rfl) : PollGoesOn s t := by
  constructor <;> simp only [hreg, hst, Nat.le_refl]

theorem refl (s : State) : PollGoesOn s s := of_eq

theorem trans (h : PollGoesOn s t) (h' : PollGoesOn t u) : PollGoesOn s u where
  active := h'.active.trans h.active
  verdict := h'.verdict.trans h.verdict
  budget := h'.budget.trans h.budget
  busy := h'.busy.trans h.busy
  phase := h'.phase.trans h.phase
  elapsed := h.elapsed.trans h'.elapsed

theorem polling (h : PollGoesOn s t) (hp : Polling s) : Polling t where
  active := h.active.trans hp.active
  verdict := h.verdict.trans hp.verdict
  busy := h.busy.trans hp.busy
  phase := h.phase ▸ hp.phase

end PollGoesOn

/-! ### The agents -/

/-- The CSM waits for the verdict (R301, R304). -/
theorem csmStep_of_polling (hp : Polling s) : csmStep s = .next s := by
  apply csmStep_of_not_enabled
  rcases hp.phase with h | h <;> simp [csmEnabled, h, hp.verdict]

theorem dmaStep_pollGoesOn (s : State) : PollGoesOn s (dmaStep s) := by
  rcases hd : s.st.dma with _ | ⟨dst, n, a, k⟩ | ⟨p, n, a⟩
  · rw [dmaStep_idle hd]; exact .refl s
  · cases hadm : dstAdmitted s.cfg n dst with
    | false => rw [dmaStep_rx_refused hd hadm]; exact .refl s
    | true =>
      obtain ⟨bs, d, -, -, hstep⟩ := dmaStep_rx_shape hd hadm
      rw [hstep]
      cases dst <;> exact ⟨rfl, rfl, rfl, rfl, rfl, Nat.le_refl _⟩
  · cases hadm : admits s.cfg p.toNat n with
    | false => rw [dmaStep_tx_refused hd hadm]; exact .refl s
    | true =>
      have hdata := (txBytes_busOnly s p.toNat n).trans (respEqpp_busOnly _ a (txBytes p.toNat n s).1)
      rw [dmaStep_tx hd hadm]
      have hkept : PollGoesOn s (respEqpp a (txBytes p.toNat n s).1 (txBytes p.toNat n s).2) :=
        .of_eq hdata.reg hdata.st
      exact { hkept with }

/-- A sample that does not decide lets the poll go on, one that does ends it. -/
theorem sampleStep_of_polling (hp : Polling s) : PollGoesOn s (sampleStep s) ∨ PollEnded (sampleStep s) := by
  obtain ⟨sr, d, t, -, rfl, hstep⟩ := sampleStep_of_active hp.active
  rw [hstep]
  split
  · exact .inl ⟨rfl, rfl, rfl, rfl, rfl, Nat.le_refl _⟩
  · exact .inr ⟨rfl, .inl nofun⟩
  · exact .inr ⟨rfl, .inl nofun⟩

/-- A sample past the budget ends the poll. -/
theorem sampleStep_past_budget (h : s.st.pollActive = true) (hb : s.st.pollBudget ≤ s.st.pollElapsed) :
    (sampleStep s).st.pollActive = false := by
  obtain ⟨sr, d, t, -, -, hstep⟩ := sampleStep_of_active h
  rw [hstep]
  split
  · exact absurd ‹_› (voter_ne_none hb)
  · rfl
  · rfl

theorem tickStep_pollGoesOn (s : State) : PollGoesOn s (tickStep s) := by
  cases hen : tickEnabled s with
  | false => rw [tickStep_of_disabled hen]; exact .refl s
  | true =>
    rw [tickStep_of_enabled hen]
    refine ⟨rfl, rfl, rfl, rfl, rfl, ?_⟩
    have hlt := s.st.pollElapsed.isLt
    dsimp only
    split
    · rw [toNat_satSucc]; omega
    · exact Nat.le_refl _

theorem completeOp_pollGoesOn (s : State) : PollGoesOn s (completeOp s) := by
  unfold completeOp
  split <;> exact .of_eq

/-- A command word is dropped while a command runs (R457), and a write of STATUS releases HALTED only (R465). -/
theorem writeWindow_pollGoesOn (hp : Polling s) (off : Nat) (v : Word) : PollGoesOn s (writeWindow off v s) := by
  unfold writeWindow
  split
  · rename_i r _
    cases r
    case cmd =>
      have hdrop : writeReg .cmd v s = { s with reg.ovr := true } := if_pos (.inl hp.busy)
      rw [hdrop]
      exact ⟨rfl, rfl, rfl, rfl, rfl, Nat.le_refl _⟩
    case status =>
      have hhalted : s.reg.phase ≠ .halted := by rcases hp.phase with h | h <;> simp [h]
      exact ⟨rfl, rfl, rfl, rfl, if_neg fun h => hhalted h.2, Nat.le_refl _⟩
    all_goals exact ⟨rfl, rfl, rfl, rfl, rfl, Nat.le_refl _⟩
  · exact .refl s

theorem hostAccess_pollGoesOn {op : HostOp} (hp : Polling s) (h : hostAccess op s = .next t) : PollGoesOn s t := by
  cases op with
  | write off width v =>
    dsimp only [hostAccess] at h
    split at h <;> cases h
    exact writeWindow_pollGoesOn hp off v
  | read off width =>
    dsimp only [hostAccess] at h
    split at h <;> cases h
    exact .of_eq
  | wait => cases h; split <;> exact .of_eq
  | store a b => cases h; exact .of_eq
  | load a =>
    cases h
    unfold hostLoad
    split
    · exact .of_eq (takeByte_reg s) (takeByte_st s)
    · exact .of_eq

theorem hostStep_pollGoesOn (hp : Polling s) (h : hostStep s = .next t) : PollGoesOn s t := by
  unfold hostStep at h
  split at h
  · cases h; exact .refl s
  · rename_i op rest _
    have htaken : PollGoesOn s { s with env.prog := rest } := .of_eq
    exact htaken.trans (hostAccess_pollGoesOn (htaken.polling hp) h)

/-- A device instruction's meaning is the device's response, which touches the bus side only. -/
theorem busOnly_of_exec {i : Instr} (hi : i.isCommand = false) (h : exec i s = .next t) : BusOnly s t := by
  cases i with
  | nop | init | deinit | read | write | erase | eraseVerify | systemError | bulkErase | writeEnable | readStatus =>
    cases hi
  | wren => cases h; exact respWren_busOnly s
  | rdsr => cases h; exact respRdsr_busOnly s
  | rdvcr => cases h; exact respRdvcr_busOnly s
  | wrvcr v => cases h; exact respWrvcr_busOnly s v
  | qiofr a k n => cases h; exact respQiofr_busOnly s a k n.toNat
  | eqpp a data => cases h; exact respEqpp_busOnly s a data
  | sse a => cases h; exact respErase_busOnly s ..
  | se a => cases h; exact respErase_busOnly s ..
  | be => cases h; exact respErase_busOnly s ..

theorem busStep_pollGoesOn (h : busStep s = .next t) : PollGoesOn s t := by
  unfold busStep at h
  split at h
  · cases h; exact .refl s
  · split at h
    · rename_i hdec
      have hbus := busOnly_of_exec (not_isCommand_of_decodeFrame hdec) h
      exact .of_eq hbus.reg hbus.st
    · cases h; exact .of_eq

/-- The step of an agent that does nothing while reset is asserted (R500). -/
theorem pollGoesOn_unless_inReset {r : Result} (hr : r = .next t → PollGoesOn s t ∨ PollEnded t)
    (h : (if s.env.inReset then .next s else r) = .next t) : PollGoesOn s t ∨ PollEnded t := by
  split at h
  · cases h; exact .inl (.refl s)
  · exact hr h

theorem act_of_polling {a : Agent} (hp : Polling s) (h : act a s = .next t) : PollGoesOn s t ∨ PollEnded t := by
  cases a with
  | csm =>
    refine pollGoesOn_unless_inReset (fun e => .inl ?_) h
    rw [csmStep_of_polling hp] at e
    cases e
    exact .refl s
  | dma => exact pollGoesOn_unless_inReset (fun e => by cases e; exact .inl (dmaStep_pollGoesOn s)) h
  | sample => exact pollGoesOn_unless_inReset (fun e => by cases e; exact sampleStep_of_polling hp) h
  | host => exact pollGoesOn_unless_inReset (fun e => .inl (hostStep_pollGoesOn hp e)) h
  | tick => cases h; exact .inl (tickStep_pollGoesOn s)
  | device => cases h; exact .inl (completeOp_pollGoesOn s)
  | bus => exact .inl (busStep_pollGoesOn h)
  | resetAssert => exact pollGoesOn_unless_inReset (fun e => by cases e; exact .inr ⟨rfl, .inr rfl⟩) h
  | resetRelease => cases h; exact .inl .of_eq

end Poll

/-! ## Fair runs (R222, R263) -/

section FairRuns

variable {schedule : Nat → Agent} {r : Nat → State} {n m : Nat}

/-! ### Places of a run -/

theorem act_of_schedule {a : Agent} (hr : Runs schedule r) (hs : schedule m = a) :
    act a (taken [] (r m)) = .next (r (m + 1)) := hs ▸ hr.act m

theorem next_of_tick (hr : Runs schedule r) (hs : schedule m = .tick) : r (m + 1) = tickStep (taken [] (r m)) :=
  (Host.Outcome.next.inj (act_of_schedule hr hs)).symm

theorem next_of_device (hr : Runs schedule r) (hs : schedule m = .device) :
    r (m + 1) = completeOp (taken [] (r m)) := (Host.Outcome.next.inj (act_of_schedule hr hs)).symm

theorem next_of_sample (hr : Runs schedule r) (hs : schedule m = .sample) (hreset : (r m).env.inReset = false) :
    r (m + 1) = sampleStep (taken [] (r m)) :=
  Host.Outcome.next.inj ((act_of_schedule hr hs).symm.trans (act_sample hreset))

/-- An enabled tick of a running poll counts. -/
theorem elapsed_of_tick (hr : Runs schedule r) (hs : schedule m = .tick) (hen : tickEnabled (r m) = true)
    (ha : (r m).st.pollActive = true) : (r (m + 1)).st.pollElapsed = satSucc (r m).st.pollElapsed := by
  rw [next_of_tick hr hs, tickStep_of_enabled (s := taken [] (r m)) hen]
  exact if_pos ha

theorem poll_goesOn_or_ended (hr : Runs schedule r) (hp : Polling (r m)) :
    PollGoesOn (r m) (r (m + 1)) ∨ PollEnded (r (m + 1)) := by
  have htaken : PollGoesOn (r m) (taken [] (r m)) := .of_eq
  exact (act_of_polling (htaken.polling hp) (act_of_schedule hr rfl)).imp_left htaken.trans

/-- The poll goes on for as long as it stays active. -/
theorem pollGoesOn_of_active (hr : Runs schedule r) (hp : Polling (r n)) (hm : n ≤ m)
    (hactive : ∀ k, n ≤ k → k ≤ m → (r k).st.pollActive = true) : PollGoesOn (r n) (r m) := by
  induction m, hm using Nat.le_induction with
  | base => exact .refl _
  | succ m hm ih =>
    have hgoes := ih fun k hn hk => hactive k hn (Nat.le_succ_of_le hk)
    rcases poll_goesOn_or_ended hr (hgoes.polling hp) with h | ⟨hended, -⟩
    · exact hgoes.trans h
    · simp [hactive (m + 1) (Nat.le_succ_of_le hm) (Nat.le_refl _)] at hended

/-! ### What fairness gives -/

/-- The time of a poll that never ended would pass every 32-bit bound: the ticks are taken again and again. -/
theorem elapsed_unbounded (hf : FairRun schedule r) (hp : Polling (r n))
    (hactive : ∀ k, n ≤ k → (r k).st.pollActive = true) (b : Nat) (hb : b < 2 ^ 32) :
    ∃ m, n ≤ m ∧ b ≤ (r m).st.pollElapsed.toNat := by
  induction b with
  | zero => exact ⟨n, Nat.le_refl n, Nat.zero_le _⟩
  | succ b ih =>
    obtain ⟨m, hm, hle⟩ := ih (by omega)
    obtain ⟨l, hl, htick, hen⟩ := hf.ticks m fun k hk => hactive k (hm.trans hk)
    have hpm := (pollGoesOn_of_active hf.runs hp hm fun k hk _ => hactive k hk).polling hp
    have hmono := (pollGoesOn_of_active hf.runs hpm hl fun k hk _ => hactive k (hm.trans hk)).elapsed
    refine ⟨l + 1, by omega, ?_⟩
    rw [elapsed_of_tick hf.runs htick hen (hactive l (hm.trans hl)), toNat_satSucc]
    omega

/-- No poll runs for ever: once its budget has elapsed the next sample ends it. -/
theorem exists_not_active (hf : FairRun schedule r) (hp : Polling (r n)) :
    ∃ m, n ≤ m ∧ (r m).st.pollActive = false := by
  by_contra hnever
  have hactive (k : Nat) (hk : n ≤ k) : (r k).st.pollActive = true := by
    by_contra h
    exact hnever ⟨k, hk, by simpa using h⟩
  obtain ⟨m, hm, helapsed⟩ := elapsed_unbounded hf hp hactive (r n).st.pollBudget.toNat (BitVec.isLt _)
  obtain ⟨l, hl, hsample, hreset⟩ := hf.samples m fun k hk => hactive k (hm.trans hk)
  have hgoes := pollGoesOn_of_active hf.runs hp hm fun k hk _ => hactive k hk
  have hgoes' := pollGoesOn_of_active hf.runs (hgoes.polling hp) hl fun k hk _ => hactive k (hm.trans hk)
  have hbudget : (r l).st.pollBudget ≤ (r l).st.pollElapsed := by
    rw [BitVec.le_def, hgoes'.budget, hgoes.budget]
    exact helapsed.trans hgoes'.elapsed
  refine hnever ⟨l + 1, by omega, ?_⟩
  rw [next_of_sample hf.runs hsample hreset]
  exact sampleStep_past_budget (hactive l (hm.trans hl)) hbudget

/-- At the first place where it is no longer active the poll has ended with a verdict or by reset. -/
theorem poll_ends (hf : FairRun schedule r) (hp : Polling (r n)) :
    ∃ m, n < m ∧ (∀ k, n ≤ k → k < m → (r k).st.pollActive = true) ∧ PollEnded (r m) := by
  have hex := exists_not_active hf hp
  obtain ⟨hle, hoff⟩ := Nat.find_spec hex
  have hactive (k : Nat) (hn : n ≤ k) (hk : k < Nat.find hex) : (r k).st.pollActive = true := by
    by_contra h
    exact Nat.find_min hex hk ⟨hn, by simpa using h⟩
  have hne : Nat.find hex ≠ n := fun h => by simp [h, hp.active] at hoff
  obtain ⟨l, hl⟩ : ∃ l, Nat.find hex = l + 1 := Nat.exists_eq_succ_of_ne_zero (by omega)
  rw [hl] at hle hoff hactive hne
  refine ⟨l + 1, by omega, hactive, ?_⟩
  have hpl := (pollGoesOn_of_active hf.runs hp (m := l) (by omega) fun k hn hk => hactive k hn (by omega)).polling hp
  rcases poll_goesOn_or_ended hf.runs hpl with h | h
  · rw [h.active, hpl.active] at hoff
    cases hoff
  · exact h

/-- An operation that never ended would leave the device's completion step enabled for ever. -/
theorem operation_ends (hf : FairRun schedule r) (hop : (r n).dev.op ≠ .none) :
    ∃ m, n < m ∧ (r m).dev.op = .none := by
  by_contra hnever
  have hrunning (k : Nat) (hk : n ≤ k) : (r k).dev.op ≠ .none := by
    rcases Nat.eq_or_lt_of_le hk with rfl | hlt
    · exact hop
    · exact fun h => hnever ⟨k, hlt, h⟩
  obtain ⟨m, hm, hdevice⟩ := hf.completions n hrunning
  refine hnever ⟨m + 1, by omega, ?_⟩
  rw [next_of_device hf.runs hdevice]
  exact completeOp_op _

end FairRuns

/-- Settles O47: the tick by its guard; a poll under the control invariant ends since its time passes its budget, and a
device's operation since its completion stays enabled. -/
theorem tickAdvancesTime : Obligations.TickAdvancesTime := by
  refine ⟨fun s rest hagenda => ?_, fun schedule r n hf => ⟨fun hc ha => ?_, operation_ends hf⟩⟩
  · have hstep : step s = .next (tickStep (taken rest s)) := step_of_agenda hagenda
    rw [hstep]
    refine ⟨fun hb hop hage => ?_, fun hfree => ?_⟩
    · rw [tickStep_of_disabled (tickEnabled_eq_false_iff (s := taken rest s).mpr ⟨hb, hop, hage⟩)]
    · have hen : tickEnabled (taken rest s) = true := by
        rw [← Bool.not_eq_false, tickEnabled_eq_false_iff]
        rintro ⟨hb, hop, hage⟩
        rcases hfree with h | h | h
        · exact absurd (hb.symm.trans h) nofun
        · exact hop h
        · exact Nat.not_lt.mpr hage h
      rw [tickStep_of_enabled hen]
      rfl
  · obtain ⟨m, hm, hactive, hoff, hend⟩ := poll_ends hf (polling_of_control hc ha)
    exact ⟨m, hm, hactive, hoff, hend⟩

end Sys2Proof.Proofs
end

section
/-! Flash commands (41_flash_commands.md): the reference device's response to each of its nine instructions, and its
completion step. -/

namespace Sys2Proof.Proofs

open Sys2Proof Sys2Proof.Machine Sys2Proof.Spec

/-! ## A device instruction is the device's response to it (R203, R250) -/

section Responses

variable (s : State) (a : Off24)

@[simp] theorem exec_wren : exec .wren s = .next (respWren s) := rfl
@[simp] theorem exec_rdsr : exec .rdsr s = .next (respRdsr s) := rfl
@[simp] theorem exec_rdvcr : exec .rdvcr s = .next (respRdvcr s) := rfl
@[simp] theorem exec_wrvcr (v : Byte) : exec (.wrvcr v) s = .next (respWrvcr v s) := rfl
@[simp] theorem exec_qiofr (k : BitVec 5) (n : Word) : exec (.qiofr a k n) s = .next (respQiofr a k n.toNat s) := rfl
@[simp] theorem exec_eqpp (data : List Byte) : exec (.eqpp a data) s = .next (respEqpp a data s) := rfl
@[simp] theorem exec_sse : exec (.sse a) s = .next (respErase .sse (a.toNat - a.toNat % 4096) 4096 s) := rfl
@[simp] theorem exec_se : exec (.se a) s = .next (respErase .se (a.toNat - a.toNat % 65536) 65536 s) := rfl
@[simp] theorem exec_be : exec .be s = .next (respErase .be 0 s.cfg.capacity s) := rfl

end Responses

/-! ## The write-enable latch (R251, R252) -/

section Latch

variable {s : State}

theorem respWren_of_idle (h : s.dev.op = .none) : respWren s = { s with dev.wel := true } := if_pos h

theorem respWren_of_busy (h : s.dev.op ≠ .none) : respWren s = s := if_neg h

/-- A device that is busy or not latched executes no instruction that needs the latch. -/
theorem not_idle_latched (h : s.dev.op ≠ .none ∨ s.dev.wel = false) : ¬ (s.dev.op = .none ∧ s.dev.wel = true) := by
  rintro ⟨hidle, hwel⟩
  rcases h with hbusy | hclear
  · exact hbusy hidle
  · simp [hwel] at hclear

end Latch

/-- Settles O37: WREN's response by whether the device is idle. -/
theorem wrenSetsTheLatch : Obligations.WrenSetsTheLatch := by
  refine fun s => ⟨fun hidle => ?_, fun hbusy => ?_⟩
  · rw [exec_wren, respWren_of_idle hidle]
  · rw [exec_wren, respWren_of_busy hbusy]

/-! ## The status byte (R253, R71) -/

section Status

variable {c : Cfg}

/-- The bits of the status byte under a mask: each of its three parts under that mask. -/
theorem srByte_and (d : Device) (other m : Byte) :
    srByte c d other &&& m =
      (other &&& (~~~(c.srWipMask ||| c.srWelMask) &&& m)) ||| (if d.op ≠ .none then c.srWipMask &&& m else 0) |||
        (if d.wel = true then c.srWelMask &&& m else 0) := by
  unfold srByte
  ext i hi
  split <;> split <;> simp [Bool.and_or_distrib_right, Bool.and_assoc]

/-- No bit of a mask is outside a union that holds the mask. -/
theorem not_or_and_left (m l : Byte) : ~~~(m ||| l) &&& m = 0 := by
  ext i hi
  cases hm : m[i] <;> simp [hm]

theorem srByte_wip (hv : c.Valid) (d : Device) (other : Byte) :
    srByte c d other &&& c.srWipMask = if d.op ≠ .none then c.srWipMask else 0 := by
  have hwel : c.srWelMask &&& c.srWipMask = 0 := by rw [BitVec.and_comm]; exact hv.masks_disjoint
  rw [srByte_and, not_or_and_left, hwel]
  simp

theorem srByte_wel (hv : c.Valid) (d : Device) (other : Byte) :
    srByte c d other &&& c.srWelMask = if d.wel = true then c.srWelMask else 0 := by
  rw [srByte_and, hv.masks_disjoint, BitVec.or_comm c.srWipMask, not_or_and_left]
  simp

theorem srByte_others (d : Device) (other : Byte) :
    srByte c d other &&& ~~~(c.srWipMask ||| c.srWelMask) = other &&& ~~~(c.srWipMask ||| c.srWelMask) := by
  have hwip : c.srWipMask &&& ~~~(c.srWipMask ||| c.srWelMask) = 0 := by rw [BitVec.and_comm, not_or_and_left]
  have hwel : c.srWelMask &&& ~~~(c.srWipMask ||| c.srWelMask) = 0 := by
    rw [BitVec.and_comm, BitVec.or_comm, not_or_and_left]
  rw [srByte_and, hwip, hwel]
  simp

end Status

section Reads

variable {s : State}

/-- A drawn byte consumes draws only. -/
theorem takeByte_shape (s : State) : ∃ d, (takeByte s).2 = { s with env.draws := d } := by
  unfold takeByte
  split <;> exact ⟨_, rfl⟩

theorem respRdsr_shape (s : State) :
    ∃ d, respRdsr s = { s with env.draws := d, out.busRx := [srByte s.cfg s.dev (takeByte s).1] } := by
  obtain ⟨d, hd⟩ := takeByte_shape s
  exact ⟨d, by simp only [respRdsr, hd]⟩

theorem respRdvcr_of_idle (h : s.dev.op = .none) : respRdvcr s = { s with out.busRx := [s.dev.vcr] } := if_pos h

theorem respRdvcr_of_busy (h : s.dev.op ≠ .none) :
    ∃ b d, respRdvcr s = { s with env.draws := d, out.busRx := [b] } := by
  obtain ⟨d, hd⟩ := takeByte_shape s
  exact ⟨(takeByte s).1, d, by simp only [respRdvcr, if_neg h, hd]⟩

end Reads

/-- Settles O38: the two masks and the six other bits select disjoint parts of the status byte. -/
theorem rdsrDrivesTheStatus : Obligations.RdsrDrivesTheStatus := by
  intro s hv
  obtain ⟨d, hresp⟩ := respRdsr_shape s
  exact ⟨_, d, by rw [exec_rdsr, hresp], srByte_wip hv _ _, srByte_wel hv _ _, srByte_others _ _⟩

/-! ## The volatile configuration register (R254, R255, R251) -/

section Vcr

variable {s : State}

theorem respWrvcr_of_latched (v : Byte) (hidle : s.dev.op = .none) (hwel : s.dev.wel = true) :
    respWrvcr v s = settleWel { s with dev.vcr := v } := if_pos ⟨hidle, hwel⟩

theorem respWrvcr_ignored (v : Byte) (h : s.dev.op ≠ .none ∨ s.dev.wel = false) : respWrvcr v s = s :=
  if_neg (not_idle_latched h)

end Vcr

/-- Settles O39: the responses case by case; after a WRVCR the latch is as `settleWel` leaves it. -/
theorem vcrReadAndWritten : Obligations.VcrReadAndWritten := by
  intro s v
  refine ⟨fun hidle => ?_, fun hbusy => ?_, fun hidle hwel => ?_, fun hignored => ?_⟩
  · rw [exec_rdvcr, respRdvcr_of_idle hidle]
  · obtain ⟨b, d, hresp⟩ := respRdvcr_of_busy hbusy
    exact ⟨b, d, by rw [exec_rdvcr, hresp]⟩
  · obtain ⟨w, d, hresp, hclears⟩ := settleWel_shape { s with dev.vcr := v }
    exact ⟨w, d, by rw [exec_wrvcr, respWrvcr_of_latched v hidle hwel, hresp], hclears⟩
  · rw [exec_wrvcr, respWrvcr_ignored v hignored]

/-! ## The quad read (R256) -/

theorem respQiofr_of_agree {s : State} {a : Off24} {k : BitVec 5} {n : Nat} (hidle : s.dev.op = .none)
    (hdummy : vcrDummy s.cfg s.dev.vcr = k.toNat) :
    respQiofr a k n s = { s with out.busRx := flashBytes s a.toNat n } := if_pos ⟨hidle, hdummy⟩

/-- Settles O40: where idle device and dummy count agree the bytes are `flashBytes`; in any case they are `n`. -/
theorem qiofrDrivesTheArray : Obligations.QiofrDrivesTheArray := by
  intro s a k n
  refine ⟨fun hidle hdummy => ?_, fun _ => ?_⟩
  · exact ⟨flashBytes s a.toNat n.toNat, by rw [exec_qiofr, respQiofr_of_agree hidle hdummy], length_flashBytes s _ _,
      fun _ hi => flashBytes_get hi⟩
  · obtain ⟨bs, d, hresp, hlen, -⟩ := respQiofr_shape a k n.toNat s
    exact ⟨bs, d, by rw [exec_qiofr, hresp], hlen⟩

/-! ## The page program (R257) -/

section Program

variable {s : State} {page o i : Nat} {data l : List Byte} {d : Byte}

/-- A data byte that no later one falls upon stands at its place of the page. -/
theorem fillLatch_last (hpage : 0 < page) (hl : page ≤ l.length) (hd : data[i]? = some d)
    (hlast : ∀ j, i < j → j < data.length → (o + j) % page ≠ (o + i) % page) :
    (fillLatch page l o data)[(o + i) % page]? = some d := by
  induction data generalizing l o i with
  | nil => simp at hd
  | cons e es ih =>
    rw [fillLatch]
    cases i with
    | zero =>
      obtain rfl : e = d := by simpa using hd
      have hlater (j : Nat) (hj : j < es.length) : (o + 1 + j) % page ≠ o % page := by
        rw [Nat.add_right_comm, Nat.add_assoc]
        exact hlast (j + 1) (Nat.succ_pos j) (by simpa using hj)
      rw [Nat.add_zero o, fillLatch_other _ _ _ _ _ hlater]
      exact List.getElem?_set_self ((Nat.mod_lt o hpage).trans_le hl)
    | succ i =>
      have hshift (j : Nat) : o + (j + 1) = o + 1 + j := by omega
      rw [hshift i]
      refine ih (by simpa using hl) (by simpa using hd) fun j hij hj => ?_
      rw [← hshift j, ← hshift i]
      exact hlast (j + 1) (by omega) (by simpa using hj)

theorem respEqpp_of_latched (a : Off24) (data : List Byte) (hidle : s.dev.op = .none) (hwel : s.dev.wel = true) :
    respEqpp a data s =
      { s with
        dev.op := .program (a.toNat - a.toNat % s.cfg.pageSize)
          (fillLatch s.cfg.pageSize (List.replicate s.cfg.pageSize 0xFF) a.toNat data)
        dev.age := 0 } := if_pos ⟨hidle, hwel⟩

theorem respEqpp_ignored (a : Off24) (data : List Byte) (h : s.dev.op ≠ .none ∨ s.dev.wel = false) :
    respEqpp a data s = s := if_neg (not_idle_latched h)

end Program

/-- Settles O41: the page latch is `fillLatch` of an erased page: its length, the last byte at each place, and the
places no byte falls on. -/
theorem eqppLatchesThePage : Obligations.EqppLatchesThePage := by
  intro s a data hpage
  refine ⟨fun hidle hwel => ?_, fun hignored => by rw [exec_eqpp, respEqpp_ignored a data hignored]⟩
  rw [exec_eqpp, respEqpp_of_latched a data hidle hwel]
  refine ⟨_, rfl, ?_, fun i d hd hlast => ?_, fun j hj hother => ?_⟩
  · rw [length_fillLatch, List.length_replicate]
  · exact fillLatch_last hpage (by rw [List.length_replicate]) hd hlast
  · rw [fillLatch_other _ _ _ _ _ hother, List.getElem?_replicate_of_lt hj]

/-! ## The erases (R258 to R260) -/

section Erase

variable {s : State} (kind : EraseKind) (base size : Nat)

theorem respErase_of_latched (hidle : s.dev.op = .none) (hwel : s.dev.wel = true) :
    respErase kind base size s = { s with dev.op := .erase kind base size, dev.age := 0 } := if_pos ⟨hidle, hwel⟩

theorem respErase_ignored (h : s.dev.op ≠ .none ∨ s.dev.wel = false) : respErase kind base size s = s :=
  if_neg (not_idle_latched h)

end Erase

/-- Settles O42: all three are `respErase` of their region. -/
theorem erasesStartTheirRegion : Obligations.ErasesStartTheirRegion := by
  intro s a
  refine ⟨fun hidle hwel => ?_, fun hignored => ?_⟩
  · simp only [exec_sse, exec_se, exec_be, respErase_of_latched _ _ _ hidle hwel, and_self]
  · simp only [exec_sse, exec_se, exec_be, respErase_ignored _ _ _ hignored, and_self]

/-! ## The completion step (R261, R262) -/

section Completion

variable {s : State} {base size : Nat}

/-- The device next: the step is its completion, in reset too. -/
theorem step_of_deviceNext {rest : List Agent} (h : s.env.agenda = .device :: rest) :
    step s = .next (completeOp (taken rest s)) := step_of_agenda h

theorem completeOp_of_program {latch : List Byte} (h : s.dev.op = .program base latch) :
    completeOp s =
      { s with
        dev.array := programBytes s.cfg.capacity s.dev.array base latch
        dev.wel := false
        dev.op := .none } := by simp only [completeOp, h]

theorem completeOp_of_erase {kind : EraseKind} (h : s.dev.op = .erase kind base size) :
    completeOp s = { s with dev.array := eraseBytes s.dev.array base size, dev.wel := false, dev.op := .none } := by
  simp only [completeOp, h]

end Completion

/-- Settles O43: the array is that of the memory laws of a program or an erase. -/
theorem deviceCompletesAtomically : Obligations.DeviceCompletesAtomically := by
  intro s rest hinv hagenda hbusy
  rw [step_of_deviceNext hagenda]
  cases hop : s.dev.op with
  | none => exact absurd hop hbusy
  | program base latch =>
    refine ⟨_, congrArg _ (completeOp_of_program (s := taken rest s) hop), fun _ _ h o => ?_, nofun⟩
    cases h
    exact read_programBytes hinv.array_wf latch
  | erase kind base size =>
    refine ⟨_, congrArg _ (completeOp_of_erase (s := taken rest s) hop), nofun, fun _ _ _ h o => ?_⟩
    cases h
    exact read_eraseBytes s.dev.array base size o

end Sys2Proof.Proofs
end

section
/-! Protocol primitives (42_protocol_primitives.md): what a step of the CSM leaves, said once; that every agent keeps
the control invariant and the latch discipline; write_enable, wait_operation_complete and configure_device step by
step. -/

namespace Sys2Proof.Proofs

open Sys2Proof Sys2Proof.Machine Sys2Proof.Spec

/-! ## Where a command's step begins (R44, R45) -/

/-- Command `i` takes its step in `s`: what `csmStep_cases` finds of it. -/
structure Stepping (i : Instr) (s : State) : Prop where
  control : ControlInv s
  op : decodeOp s.st.op = .ok i
  enabled : csmEnabled s = true
  past : s.reg.phase ≠ .check → s.reg.phase ∈ commandPhases i ∧ lifecycleOk i s.reg.phase s.reg.initState ∧
    (i = .init → subOk s.reg.phase s.st.sub)

/-- A frame of an instruction that needs no latch, or one sent from where the latch was seen (R302). -/
def MayBeSent (s : State) (f : Frame) : Prop :=
  f.instr ∈ [s.cfg.opcWren, s.cfg.opcRdsr, s.cfg.opcRdvcr, s.cfg.opcQiofr] ∨ sendsLatched s

/-- The frames the step has sent: none, or one of the running command. -/
def SendsAtMostOne (s u : State) : Prop :=
  u.out.busLog = s.out.busLog ∨
    ∃ it, u.out.busLog = it :: s.out.busLog ∧ it.cmd = s.out.commands ∧ MayBeSent s it.frame

/-- What the step has made of `s` before it ends, in a phase, in success or in failure: no flag is set, and of the
control invariant what does not depend on the phase. -/
structure Worked (s u : State) : Prop where
  cfg : u.cfg = s.cfg
  commands : u.out.commands = s.out.commands
  sent : SendsAtMostOne s u
  op : u.st.op = s.st.op
  busy : u.reg.busy = true
  op_cmd : u.st.op = cmdOp u.reg.cmd
  tc : u.st.tc = false
  rc : u.st.rc = false
  bus_on : u.st.bus ≠ .off ↔ u.reg.initState ≠ .uninit
  bus_ready : u.reg.initState = .busReady → u.st.op = 1
  scratch_len : u.st.scratch.length = u.cfg.sectorSize

/-- The same with no transfer in flight and no poll running. -/
structure Quiet (s u : State) : Prop extends Worked s u where
  dma : u.st.dma = .idle
  poll : u.st.pollActive = false

/-- The same with the long chip-select time. -/
structure Rested (s u : State) : Prop extends Quiet s u where
  csht : u.st.csht = u.cfg.cshtDefault

/-- What the step has led to: the control invariant; a latch poll only right after this command's WREN; and a frame that
needs the latch only right after the latch poll's MATCH. -/
structure CsmStepped (s t : State) : Prop where
  control : ControlInv t
  cfg : t.cfg = s.cfg
  commands : t.out.commands = s.out.commands
  sent : SendsAtMostOne s t
  polls : t.reg.phase = .welPoll → t.st.verdict = .none ∧ t.st.pollMask = s.cfg.srWelMask ∧
    t.st.pollMatch = s.cfg.srWelMask ∧ ∃ it, t.out.busLog = it :: s.out.busLog ∧ it.frame.instr = s.cfg.opcWren ∧
      it.result = .ok ∧ it.cmd = s.out.commands
  pending : sendsLatched t → s.reg.phase = .welPoll ∧ s.st.verdict = .matched ∧ t.out.busLog = s.out.busLog

/-! ## Where no command runs (R457) -/

/-- The control invariant of a block that runs no command. -/
structure NoCommand (s : State) : Prop where
  busy : s.reg.busy = false
  phase : s.reg.phase = .idle ∨ s.reg.phase = .halted
  dma : s.st.dma = .idle
  tc : s.st.tc = false
  rc : s.st.rc = false
  poll : s.st.pollActive = false
  csht : s.st.csht = s.cfg.cshtDefault
  bus_on : s.st.bus ≠ .off ↔ s.reg.initState ≠ .uninit
  not_busReady : s.reg.initState ≠ .busReady
  scratch_len : s.st.scratch.length = s.cfg.sectorSize

theorem NoCommand.controlInv {s : State} (h : NoCommand s) : ControlInv s := by
  obtain ⟨hbusy, hphase, hdma, htc, hrc, hpoll, hcsht, hbus, hready, hlen⟩ := h
  constructor
  case busy_iff => rcases hphase with hp | hp <;> simp [hbusy, hp]
  case bus_on => exact hbus
  all_goals simp_all

theorem noCommand_of_control {s : State} (h : ControlInv s) (hbusy : s.reg.busy = false) : NoCommand s := by
  have hphase : s.reg.phase = .idle ∨ s.reg.phase = .halted := by
    by_contra hp
    exact absurd (h.busy_iff.2 (not_or.1 hp)) (by simp [hbusy])
  have hrun {p : Phase} (hp : s.reg.phase = p) : p = .idle ∨ p = .halted := hp ▸ hphase
  refine ⟨hbusy, hphase, ?_, ?_, ?_, ?_, ?_, h.bus_on, fun hr => ?_, h.scratch_len⟩
  · exact h.dma_idle (fun hp => by simpa using hrun hp) (fun hp => by simpa using hrun hp)
  · exact Bool.eq_false_iff.2 fun htc => by simpa using hrun (h.tc_phase htc)
  · exact Bool.eq_false_iff.2 fun hrc => by simpa using hrun (h.rc_phase hrc)
  · exact Bool.eq_false_iff.2 fun ha => by rcases h.poll_phase ha with hp | hp <;> simpa using hrun hp
  · exact h.csht_default fun hp => by simpa using hrun hp
  · obtain ⟨-, hb, -⟩ := h.bus_ready hr
    simp [hbusy] at hb

section Ends

variable {s t u : State} {i : Instr}

/-- The phases of a command past CHECK are neither CHECK itself nor those where no command runs (R44). -/
theorem phase_of_mem_commandPhases {p : Phase} (h : p ∈ commandPhases i) : p ≠ .idle ∧ p ≠ .halted ∧ p ≠ .check := by
  refine ⟨?_, ?_, ?_⟩ <;> rintro rfl <;> cases i <;> simp [commandPhases] at h

/-- The step ends in one of its command's phases. -/
theorem Worked.controlInv (h : Worked s t) (hi : Stepping i s) (hp : t.reg.phase ∈ commandPhases i)
    (hlife : lifecycleOk i t.reg.phase t.reg.initState) (hsub : i = .init → subOk t.reg.phase t.st.sub)
    (hpoll : t.st.pollActive = true → (t.reg.phase = .welPoll ∨ t.reg.phase = .busyPoll) ∧ t.st.verdict = .none)
    (hcsht : t.reg.phase ≠ .waitRx → t.st.csht = t.cfg.cshtDefault)
    (hrx : ∀ d n a k, t.st.dma = .rx d n a k → t.reg.phase = .waitRx ∧ (d = .scratch → n = t.cfg.sectorSize))
    (htx : ∀ p n a, t.st.dma = .tx p n a → t.reg.phase = .waitTx) : ControlInv t where
  busy_iff := iff_of_true h.busy ⟨(phase_of_mem_commandPhases hp).1, (phase_of_mem_commandPhases hp).2.1⟩
  dma_flags _ := ⟨h.tc, h.rc⟩
  rx_phase d n a k hd := (hrx d n a k hd).1
  tx_phase := htx
  rx_scratch n a k hd := (hrx _ n a k hd).2 rfl
  tc_phase htc := absurd htc (by simp [h.tc])
  rc_phase hrc := absurd hrc (by simp [h.rc])
  poll_phase ha := (hpoll ha).1
  poll_verdict ha := (hpoll ha).2
  csht_default := hcsht
  op_cmd _ := h.op_cmd
  bus_on := h.bus_on
  bus_ready hr := ⟨h.bus_ready hr, h.busy, (phase_of_mem_commandPhases hp).2.2⟩
  past_check _ _ := ⟨i, h.op ▸ hi.op, hp, hlife, hsub⟩
  scratch_len := h.scratch_len

/-- A step that ends its command sends no frame from there on: no poll runs and no frame is pending. -/
theorem Worked.ended (h : Worked s u) (ht : NoCommand t) (hcfg : t.cfg = u.cfg) (hout : t.out = u.out) :
    CsmStepped s t where
  control := ht.controlInv
  cfg := hcfg.trans h.cfg
  commands := hout ▸ h.commands
  sent := by unfold SendsAtMostOne; rw [hout]; exact h.sent
  polls hp := by rcases ht.phase with h | h <;> simp [h] at hp
  pending hp := by rcases ht.phase with h | h <;> simp [sendsLatched, h] at hp

/-- The failure sequence ends a poll and the short chip-select time itself, and INIT's lifecycle state (R460). -/
theorem Quiet.raise (h : Quiet s u) (e : ErrCode) (info : Word) : CsmStepped s (raise e info u) := by
  refine h.ended ⟨rfl, ?_, h.dma, h.tc, h.rc, rfl, rfl, ?_, ?_, h.scratch_len⟩ rfl rfl
  · rw [raise_reg_phase]
    split <;> simp
  · rw [raise_reg_initState, raise_st_bus, h.bus_on]
    split
    next hinit => simp [hinit.2]
    next => rfl
  · rw [raise_reg_initState]
    split
    next => simp
    next hinit => exact fun hr => hinit ⟨h.bus_ready hr, hr⟩

/-- The success sequence (R459). -/
theorem Rested.finish (h : Rested s u) (hr : u.reg.initState ≠ .busReady) : CsmStepped s (finish u) :=
  h.ended ⟨rfl, .inl rfl, h.dma, h.tc, h.rc, h.poll, h.csht, h.bus_on, hr, h.scratch_len⟩ rfl rfl

/-- The step goes on to a phase of its command that is no poll's and waits for no flag. -/
theorem Rested.enter (h : Rested s t) (hi : Stepping i s) (hlife : lifecycleOk i t.reg.phase t.reg.initState)
    (hp : t.reg.phase ∈ commandPhases i := by simp [commandPhases])
    (hsub : i = .init → subOk t.reg.phase t.st.sub := by exact nofun) (hpoll : t.reg.phase ≠ .welPoll := by exact nofun)
    (hpending : sendsLatched t → s.reg.phase = .welPoll ∧ s.st.verdict = .matched ∧ t.out.busLog = s.out.busLog := by
      exact nofun) : CsmStepped s t where
  control := by
    refine h.controlInv hi hp hlife hsub (fun ha => ?_) (fun _ => h.csht) (fun _ _ _ _ hd => ?_) fun _ _ _ hd => ?_
    · simp [h.poll] at ha
    · simp [h.dma] at hd
    · simp [h.dma] at hd
  cfg := h.cfg
  commands := h.commands
  sent := h.sent
  polls hw := absurd hw hpoll
  pending := hpending

end Ends

/-! ## Where the step begins the CSM is at rest -/

section Begin

variable {s t u : State} {i : Instr} {r : XResult × State} {k : State → State} {info : Word}

theorem op_of_encodeCmd {op : BitVec 4} {w : Word} (h : decodeOp op = .ok i) (hw : encodeCmd i = some w) :
    op = cmdOp w := by
  have hop : w32 op.toNat = w := Option.some.inj ((encodeCmd_of_decodeOp h).symm.trans hw)
  simp [← hop, cmdOp]

/-- Once its flag is consumed and the long chip-select time is back, an enabled CSM is at rest. -/
theorem rested_of_consumed (hc : ControlInv s) (hen : csmEnabled s = true) :
    Rested s { s with st.tc := false, st.rc := false, st.csht := s.cfg.cshtDefault } where
  cfg := rfl
  commands := rfl
  sent := .inl rfl
  op := rfl
  busy := show s.reg.busy = true from busy_of_csmEnabled hc hen
  op_cmd := hc.op_cmd (busy_of_csmEnabled hc hen)
  tc := rfl
  rc := rfl
  bus_on := hc.bus_on
  bus_ready hr := (hc.bus_ready hr).1
  scratch_len := hc.scratch_len
  dma := hc.dma_idle (fun hp => by simpa [csmEnabled, hp] using hen) (fun hp => by simpa [csmEnabled, hp] using hen)
  poll := Bool.eq_false_iff.2 fun ha => by
    have hv := hc.poll_verdict ha
    rcases hc.poll_phase ha with hp | hp <;> simp [csmEnabled, hp, hv] at hen
  csht := rfl

/-- In a phase that waits for no flag it is at rest. -/
theorem rested_of_control (hc : ControlInv s) (hen : csmEnabled s = true) {p : Phase} (hp : s.reg.phase = p)
    (hrx : p ≠ .waitRx := by decide) (htx : p ≠ .waitTx := by decide) : Rested s s :=
  { rested_of_consumed hc hen with
    tc := Bool.eq_false_iff.2 fun htc => htx (hp ▸ hc.tc_phase htc)
    rc := Bool.eq_false_iff.2 fun hrc => hrx (hp ▸ hc.rc_phase hrc)
    csht := hc.csht_default (hp ▸ hrx) }

namespace Stepping

theorem rested (h : Stepping i s) {p : Phase} (hp : s.reg.phase = p) (hrx : p ≠ .waitRx := by decide)
    (htx : p ≠ .waitTx := by decide) : Rested s s := rested_of_control h.control h.enabled hp hrx htx

/-- The lifecycle state a command runs in stays right in its later phases. -/
theorem lifecycle (h : Stepping i s) {p q : Phase} (hp : s.reg.phase = p) (hcheck : p ≠ .check := by decide)
    (hbus : p ≠ .busInit := by decide) (hq : q ≠ .busInit := by exact nofun) : lifecycleOk i q s.reg.initState := by
  obtain ⟨-, hlife, -⟩ := h.past (hp ▸ hcheck)
  cases i
  case init => simpa [lifecycleOk, hp, hbus, hq] using hlife
  all_goals exact hlife

/-- Only INIT runs in BUS_READY (R43). -/
theorem not_busReady (h : Stepping i s) (hi : i ≠ .init) : s.reg.initState ≠ .busReady := fun hr => by
  obtain ⟨hop, -, -⟩ := h.control.bus_ready hr
  have hdec := h.op
  rw [hop] at hdec
  cases hdec
  exact hi rfl

/-- Only WRITE, ERASE, BULK_ERASE and INIT's second frame need the latch (R302). -/
theorem not_sendsLatched (h : Stepping i s) (hw : Worked s t) (hi : i ∉ [.write, .erase, .bulkErase])
    (hsub : i = .init → t.st.sub ≠ .cfgWr) : ¬ sendsLatched t := by
  have hdec := h.op
  rintro ⟨-, hop | hop | hop | ⟨hop, hs⟩⟩ <;> rw [← hw.op, hop] at hdec <;> cases hdec
  · simp at hi
  · simp at hi
  · simp at hi
  · exact hsub rfl hs

end Stepping

/-! ## What a step goes through -/

/-- A check fails the command or lets the step go on (R455, R456). -/
theorem failIf_stepped {e : Option CheckFailure} (h : Quiet s s) (hk : e = none → CsmStepped s (k s)) :
    CsmStepped s (failIf e k s) := by
  cases e with
  | none => exact hk rfl
  | some f => exact h.raise f.1 f.2

/-- A frame or the bus set-up fails the command or lets the step go on (R201, R214). -/
theorem orTransport_stepped (h : Quiet s r.2) (hk : r.1 = .ok → CsmStepped s (k r.2)) :
    CsmStepped s (orTransport info r k) := by
  obtain ⟨x, u⟩ := r
  cases x with
  | ok => exact hk rfl
  | xfail => exact h.raise _ _

/-- A poll phase's step has a verdict. -/
theorem takeVerdict_stepped (h : Stepping i s) (hp : s.reg.phase = .welPoll ∨ s.reg.phase = .busyPoll)
    (hk : s.st.verdict = .matched → Rested s { s with st.verdict := .none } →
      CsmStepped s (k { s with st.verdict := .none })) : CsmStepped s (takeVerdict info k s) := by
  have hen := h.enabled
  have hrest : Rested s { s with st.verdict := .none } :=
    { (show Rested s s by rcases hp with hp | hp <;> exact h.rested hp) with }
  unfold takeVerdict
  split
  next hv => rcases hp with hp | hp <;> simp [csmEnabled, hp, hv] at hen
  next hv => exact hrest.toQuiet.raise _ _
  next hv => exact hk hv hrest

theorem waitRx_stepped (h : Stepping i s) (hp : s.reg.phase = .waitRx)
    (hk : Rested s { s with st.rc := false, st.csht := s.cfg.cshtDefault } →
      CsmStepped s (k { s with st.rc := false, st.csht := s.cfg.cshtDefault })) : CsmStepped s (waitRx k s) := by
  have hrc : s.st.rc = true := by simpa [csmEnabled, hp] using h.enabled
  rw [waitRx_of_rc hrc]
  exact hk { rested_of_consumed h.control h.enabled with
    tc := Bool.eq_false_iff.2 fun htc => by simpa [hp] using h.control.tc_phase htc }

theorem waitTx_stepped (h : Stepping i s) (hp : s.reg.phase = .waitTx)
    (hk : Rested s { s with st.tc := false } → CsmStepped s (k { s with st.tc := false })) :
    CsmStepped s (waitTx k s) := by
  have htc : s.st.tc = true := by simpa [csmEnabled, hp] using h.enabled
  rw [waitTx_of_tc htc]
  exact hk { rested_of_consumed h.control h.enabled with
    rc := Bool.eq_false_iff.2 fun hrc => by simpa [hp] using h.control.rc_phase hrc
    csht := h.control.csht_default (by simp [hp]) }

/-! ### Frames -/

theorem Quiet.of_eq (h : Quiet s u) (hcfg : t.cfg = u.cfg) (hreg : t.reg = u.reg) (hst : t.st = u.st)
    (hcommands : t.out.commands = u.out.commands) (hsent : SendsAtMostOne s t) : Quiet s t := by
  obtain ⟨_, _, _, _, _, _, _⟩ := t
  subst hcfg hreg hst
  exact { h with commands := hcommands.trans h.commands, sent := hsent }

theorem Quiet.of_busOnly (h : Quiet s u) (hb : BusOnly u t) : Quiet s t :=
  h.of_eq hb.cfg hb.reg hb.st hb.commands (by unfold SendsAtMostOne; rw [hb.log]; exact h.sent)

/-- The step's one frame goes out. -/
theorem Quiet.of_issued {f : Frame} (h : Quiet s u) (hi : Issued f u r) (hlog : u.out.busLog = s.out.busLog)
    (hf : MayBeSent s f) : Quiet s r.2 := by
  obtain ⟨rx, hcons⟩ := hi.log
  exact h.of_eq hi.cfg hi.reg hi.st hi.commands (.inr ⟨_, by rw [hcons, hlog], h.commands, hf⟩)

theorem Rested.of_issued {f : Frame} (h : Rested s s) (hi : Issued f s r) (hf : MayBeSent s f) : Rested s r.2 :=
  { h.toQuiet.of_issued hi rfl hf with csht := by rw [hi.st, hi.cfg]; exact h.csht }

/-! ### Polls and transfers begin -/

theorem Rested.controlInv_of_poll (h : Rested s u) (hi : Stepping i s) (m target : Byte) (n : Nat) {p : Phase}
    (hp : p = .welPoll ∨ p = .busyPoll) (hmem : p ∈ commandPhases i) (hlife : lifecycleOk i p u.reg.initState)
    (hsub : i = .init → subOk p u.st.sub) : ControlInv (toPhase p (startPoll m target n u)) :=
  have hbegun : Worked s (toPhase p (startPoll m target n u)) := { h with }
  hbegun.controlInv hi hmem hlife hsub (fun _ => ⟨hp, rfl⟩) (fun _ => h.csht)
    (fun _ _ _ _ hd => by simp [h.dma] at hd) (fun _ _ _ hd => by simp [h.dma] at hd)

/-- The latch poll begins right after the WREN (R300). -/
theorem welIssue_stepped (h : Stepping i s) (hp : s.reg.phase = .welIssue) : CsmStepped s (welIssue info s) := by
  have hwren := issueWren_issued s
  have hsent : Rested s (issueWren s).2 := (h.rested hp).of_issued hwren (.inl (by simp))
  obtain ⟨hmem, -, hsub⟩ := h.past (by simp [hp])
  have hpoll : Phase.welPoll ∈ commandPhases i := by
    rw [hp] at hmem
    cases i <;> simp [commandPhases] at hmem ⊢
  refine orTransport_stepped hsent.toQuiet fun hok => ?_
  obtain ⟨rx, hlog⟩ := hwren.log
  rw [hok] at hlog
  have hmask := congrArg Cfg.srWelMask hsent.cfg
  refine ⟨?_, hsent.cfg, hsent.commands, hsent.sent, fun _ => ⟨rfl, hmask, hmask, _, hlog, rfl, rfl, rfl⟩, nofun⟩
  refine hsent.controlInv_of_poll h _ _ _ (.inl rfl) hpoll ?_ ?_
  · rw [hwren.reg]
    exact h.lifecycle hp
  · rw [hwren.st]
    simpa [hp, subOk] using hsub

/-- The busy poll begins (R303). -/
theorem Rested.busyWait (h : Rested s u) (hi : Stepping i s) (n : Nat)
    (hlife : lifecycleOk i .busyPoll u.reg.initState)
    (hmem : .busyPoll ∈ commandPhases i := by simp [commandPhases]) : CsmStepped s (busyWait n u) :=
  ⟨h.controlInv_of_poll hi _ _ _ (.inr rfl) hmem hlife fun _ => trivial, h.cfg, h.commands, h.sent, nofun, nofun⟩

/-- A transfer begins, or its start fails (R205). -/
theorem startDma_stepped {d : Dma} {part : Nat → State → State} (h : Quiet s u) (hpart : ∀ k t, BusOnly t (part k t))
    (hk : ∀ v, BusOnly u v → Quiet s v → CsmStepped s (k { v with st.dma := d })) :
    CsmStepped s (orTransport info (startDma d part u) k) := by
  obtain ⟨v, hv, hstart⟩ | ⟨v, hv, hstart⟩ := startDma_cases (d := d) hpart u
  · rw [hstart, orTransport_ok]
    exact hk v hv (h.of_busOnly hv)
  · rw [hstart]
    exact (h.of_busOnly hv).raise _ _

/-- A read is sent and its receive begins, whatever the chip-select time (R353, R379). -/
theorem receive_stepped {dst : DmaDst} {n : Nat} {a : Off24} (h : Stepping i s) (hp : s.reg.phase = .frame)
    (hi : i ≠ .init) (hmem : .waitRx ∈ commandPhases i) (hfit : dst = .scratch → n = s.cfg.sectorSize)
    (hquiet : Quiet s u) (hreg : u.reg = s.reg) (hlog : u.out.busLog = s.out.busLog) :
    CsmStepped s (orTransport info (issueQiofr a n u) fun v =>
      orTransport info (startDma (.rx dst n a (readDummy s.cfg)) noEffect v) (toPhase .waitRx)) := by
  have hissued := issueQiofr_issued a n u
  have hsent := hquiet.of_issued hissued hlog (.inl (by simp [hquiet.cfg]))
  refine orTransport_stepped hsent fun _ => startDma_stepped hsent (fun _ => BusOnly.refl) fun v hv hquiet => ?_
  have hwaits : Worked s (toPhase .waitRx { v with st.dma := .rx dst n a (readDummy s.cfg) }) := { hquiet with }
  have hkept : v.reg = s.reg := hv.reg.trans (hissued.reg.trans hreg)
  have hlife : lifecycleOk i .waitRx v.reg.initState := hkept ▸ h.lifecycle hp
  refine ⟨hwaits.controlInv h hmem hlife (absurd · hi) (fun ha => ?_) (absurd rfl) ?_ nofun, hquiet.cfg,
    hquiet.commands, hquiet.sent, nofun, nofun⟩
  · simp [hquiet.poll] at ha
  · rintro _ _ _ _ ⟨⟩
    exact ⟨rfl, fun hd => (hfit hd).trans (congrArg Cfg.sectorSize hquiet.cfg).symm⟩

theorem startRead_stepped {dst : DmaDst} {n : Nat} (h : Stepping i s) (hp : s.reg.phase = .frame) (hi : i ≠ .init)
    (hmem : .waitRx ∈ commandPhases i) (hfit : dst = .scratch → n = s.cfg.sectorSize) :
    CsmStepped s (startRead dst n s) := by
  have hrest := (h.rested hp).toQuiet
  unfold startRead
  dsimp only
  split
  · exact receive_stepped h hp hi hmem hfit { hrest with } rfl rfl
  · exact receive_stepped h hp hi hmem hfit hrest rfl rfl

/-- The latch poll's MATCH lets the command go on to its frame (R301). -/
theorem welPoll_stepped (h : Stepping i s) (hp : s.reg.phase = .welPoll)
    (hmem : .frame ∈ commandPhases i := by simp [commandPhases]) :
    CsmStepped s (takeVerdict info (toPhase .frame) s) := by
  obtain ⟨-, -, hsub⟩ := h.past (by simp [hp])
  refine takeVerdict_stepped h (.inl hp) fun hv hrest => ?_
  refine Rested.enter { hrest with } h (h.lifecycle hp) hmem (fun hi => ?_) nofun fun _ => ⟨hp, hv, rfl⟩
  have hsub : s.st.sub = .cfgWr := by simpa [hp, subOk] using hsub hi
  simp [subOk, hsub]

/-- The busy poll's MATCH lets the command advance (R304). -/
theorem busyPoll_stepped (h : Stepping i s) (hp : s.reg.phase = .busyPoll)
    (hmem : .advance ∈ commandPhases i := by simp [commandPhases]) :
    CsmStepped s (takeVerdict info (toPhase .advance) s) :=
  takeVerdict_stepped h (.inr hp) fun _ hrest =>
    Rested.enter { hrest with } h (h.lifecycle hp) hmem fun _ => trivial

/-- The step goes on to FRAME, where the command sends nothing that needs the latch. -/
theorem Rested.enter_unlatched (h : Rested s t) (hi : Stepping i s)
    (hlife : lifecycleOk i t.reg.phase t.reg.initState) (hcmd : i ∉ [.write, .erase, .bulkErase] := by simp)
    (hnext : i = .init → t.st.sub ≠ .cfgWr := by exact nofun)
    (hp : t.reg.phase ∈ commandPhases i := by simp [commandPhases])
    (hsub : i = .init → subOk t.reg.phase t.st.sub := by exact nofun)
    (hpoll : t.reg.phase ≠ .welPoll := by exact nofun) : CsmStepped s t :=
  h.enter hi hlife hp hsub hpoll fun hs => absurd hs (hi.not_sendsLatched h.toWorked hcmd hnext)

end Begin

/-! ## The commands -/

section Commands

variable {s t : State}

theorem checkReady_eq_none (h : checkReady s = none) : s.reg.initState = .ready := by
  unfold checkReady at h
  split at h
  · cases h
  · exact not_not.1 ‹_›

theorem orElse_eq_none {α : Type} {x y : Option α} (h : (x <|> y) = none) : x = none := by cases x; exacts [rfl, h]

theorem execNop_stepped (h : Stepping .nop s) (ht : execNop s = .next t) : CsmStepped s t := by
  unfold execNop at ht
  split at ht <;> cases ht
  next hp => exact (h.rested hp).finish (h.not_busReady nofun)

theorem execSystemError_stepped (h : Stepping .systemError s) (ht : execSystemError s = .next t) :
    CsmStepped s t := by
  unfold execSystemError at ht
  split at ht <;> cases ht
  next hp =>
    have hhook : Rested s (hook s.reg.ecode s) := { h.rested hp with }
    exact hhook.finish (h.not_busReady nofun)

theorem execDeinit_stepped (h : Stepping .deinit s) (ht : execDeinit s = .next t) : CsmStepped s t := by
  unfold execDeinit at ht
  split at ht <;> cases ht
  next hp =>
    have hrest := h.rested hp
    unfold deinitCheck
    dsimp only
    split
    next hoff =>
      have hdone : Rested s { s with reg.initState := .uninit } :=
        { hrest with bus_on := by simp [hoff], bus_ready := nofun }
      exact hdone.finish nofun
    next =>
      have hdone : Rested s { busDeinit s with reg.initState := .uninit } :=
        { hrest with csht := rfl, bus_on := by simp [busDeinit], bus_ready := nofun }
      exact hdone.finish nofun

theorem execRead_stepped (h : Stepping .read s) (ht : execRead s = .next t) : CsmStepped s t := by
  unfold execRead at ht
  split at ht <;> cases ht
  next hp =>
    have hrest := h.rested hp
    refine failIf_stepped hrest.toQuiet fun hcheck => ?_
    unfold readCheck
    dsimp only
    split
    · exact Rested.finish { hrest with } (h.not_busReady nofun)
    · have hready := checkReady_eq_none (orElse_eq_none hcheck)
      exact Rested.enter_unlatched { hrest with } h hready
  next hp => exact startRead_stepped h hp nofun (by simp [commandPhases]) nofun
  next hp => exact waitRx_stepped h hp fun hrest => hrest.finish (h.not_busReady nofun)

theorem execEraseVerify_stepped (h : Stepping .eraseVerify s) (ht : execEraseVerify s = .next t) :
    CsmStepped s t := by
  unfold execEraseVerify at ht
  split at ht <;> cases ht
  next hp =>
    have hrest := h.rested hp
    refine failIf_stepped hrest.toQuiet fun hcheck => ?_
    have hready := checkReady_eq_none (orElse_eq_none hcheck)
    exact Rested.enter_unlatched { hrest with } h hready (hp := by simp [verifyCheck, commandPhases])
  next hp => exact startRead_stepped h hp nofun (by simp [commandPhases]) fun _ => rfl
  next hp =>
    exact waitRx_stepped h hp fun hrest =>
      Rested.enter { hrest with } h (h.lifecycle hp)
  next hp =>
    have hrest := h.rested hp
    unfold verifyCompare
    split
    · exact hrest.toQuiet.raise _ _
    · exact Rested.enter { hrest with } h (h.lifecycle hp)
  next hp =>
    have hrest := h.rested hp
    unfold verifyAdvance
    dsimp only
    split
    · exact Rested.finish { hrest with } (h.not_busReady nofun)
    · exact Rested.enter_unlatched { hrest with } h (h.lifecycle hp)

/-- The EQPP follows the latch poll's MATCH (R302). -/
theorem writeFrame_stepped (h : Stepping .write s) (hp : s.reg.phase = .frame) : CsmStepped s (writeFrame s) := by
  have hissued := issueEqpp_issued (off24 s.st.cur.toNat) s.st.ptr s.st.chunk.toNat s
  have hsent := (h.rested hp).of_issued hissued (.inr ⟨hp, .inl (op_of_encodeCmd h.op rfl)⟩)
  unfold writeFrame
  refine orTransport_stepped hsent.toQuiet fun _ =>
    startDma_stepped hsent.toQuiet (fun k t => partEqpp_busOnly t _ _ _ k) fun v hv hquiet => ?_
  have hwaits : Worked s (toPhase .waitTx { v with
      st.dma := .tx s.st.ptr s.st.chunk.toNat (off24 s.st.cur.toNat) }) := { hquiet with }
  have hlife : lifecycleOk .write .waitTx v.reg.initState := (hv.reg.trans hissued.reg) ▸ h.lifecycle hp
  refine ⟨hwaits.controlInv h (by simp [commandPhases]) hlife nofun (fun ha => ?_) (fun _ => ?_) nofun
    fun _ _ _ _ => rfl, hquiet.cfg, hquiet.commands, hquiet.sent, nofun, nofun⟩
  · simp [hquiet.poll] at ha
  · change v.st.csht = v.cfg.cshtDefault
    rw [hv.st, hv.cfg]
    exact hsent.csht

theorem execWrite_stepped (h : Stepping .write s) (ht : execWrite s = .next t) : CsmStepped s t := by
  unfold execWrite at ht
  split at ht <;> cases ht
  next hp =>
    have hrest := h.rested hp
    refine failIf_stepped hrest.toQuiet fun hcheck => ?_
    unfold writeCheck
    dsimp only
    split
    · exact Rested.finish { hrest with } (h.not_busReady nofun)
    · have hready := checkReady_eq_none (orElse_eq_none hcheck)
      exact Rested.enter { hrest with } h hready
  next hp => exact welIssue_stepped h hp
  next hp => exact welPoll_stepped h hp
  next hp => exact writeFrame_stepped h hp
  next hp => exact waitTx_stepped h hp fun hrest => hrest.busyWait h _ (h.lifecycle hp)
  next hp => exact busyPoll_stepped h hp
  next hp =>
    have hrest := h.rested hp
    unfold writeAdvance
    dsimp only
    split
    · exact Rested.finish { hrest with } (h.not_busReady nofun)
    · exact Rested.enter { hrest with } h (h.lifecycle hp)

/-- The erase instruction follows the latch poll's MATCH (R302), then the busy poll begins. -/
theorem eraseFrameStep_stepped (h : Stepping .erase s) (hp : s.reg.phase = .frame) :
    CsmStepped s (eraseFrameStep s) := by
  have hlatched : sendsLatched s := ⟨hp, .inr (.inl (op_of_encodeCmd h.op rfl))⟩
  have hbusy {f : Frame} {r : XResult × State} {info : Word} {n : Cfg → Nat} (hissued : Issued f s r) :
      CsmStepped s (orTransport info r fun u => busyWait (n u.cfg) u) := by
    have hsent := (h.rested hp).of_issued hissued (.inr hlatched)
    exact orTransport_stepped hsent.toQuiet fun _ => hsent.busyWait h _ (hissued.reg ▸ h.lifecycle hp)
  unfold eraseFrameStep
  dsimp only
  split
  · exact hbusy (issueSse_issued ..)
  · exact hbusy (issueSe_issued ..)

theorem execErase_stepped (h : Stepping .erase s) (ht : execErase s = .next t) : CsmStepped s t := by
  unfold execErase at ht
  split at ht <;> cases ht
  next hp =>
    have hrest := h.rested hp
    refine failIf_stepped hrest.toQuiet fun hcheck => ?_
    unfold eraseCheck
    dsimp only
    split
    · exact Rested.finish { hrest with } (h.not_busReady nofun)
    · have hready := checkReady_eq_none (orElse_eq_none hcheck)
      exact Rested.enter { hrest with } h hready
  next hp => exact welIssue_stepped h hp
  next hp => exact welPoll_stepped h hp
  next hp => exact eraseFrameStep_stepped h hp
  next hp => exact busyPoll_stepped h hp
  next hp =>
    have hrest := h.rested hp
    unfold eraseAdvance
    dsimp only
    split
    · exact Rested.finish { hrest with } (h.not_busReady nofun)
    · exact Rested.enter { hrest with } h (h.lifecycle hp)

theorem execBulkErase_stepped (h : Stepping .bulkErase s) (ht : execBulkErase s = .next t) : CsmStepped s t := by
  unfold execBulkErase at ht
  split at ht <;> cases ht
  next hp =>
    have hrest := h.rested hp
    exact failIf_stepped hrest.toQuiet fun hcheck => Rested.enter { hrest with } h (checkReady_eq_none hcheck)
  next hp => exact welIssue_stepped h hp
  next hp => exact welPoll_stepped h hp
  next hp =>
    have hissued := issueBe_issued s
    have hsent := (h.rested hp).of_issued hissued (.inr ⟨hp, .inr (.inr (.inl (op_of_encodeCmd h.op rfl)))⟩)
    exact orTransport_stepped hsent.toQuiet fun _ => hsent.busyWait h _ (hissued.reg ▸ h.lifecycle hp)
  next hp => exact takeVerdict_stepped h (.inr hp) fun _ hrest => hrest.finish (h.not_busReady nofun)

theorem checkBusUp_eq_none (h : checkBusUp s = none) : s.reg.initState ≠ .uninit := by
  unfold checkBusUp at h
  split at h
  · cases h
  · assumption

theorem execWriteEnable_stepped (h : Stepping .writeEnable s) (ht : execWriteEnable s = .next t) :
    CsmStepped s t := by
  unfold execWriteEnable at ht
  split at ht <;> cases ht
  next hp =>
    have hrest := h.rested hp
    exact failIf_stepped hrest.toQuiet fun hcheck => Rested.enter { hrest with } h (checkBusUp_eq_none hcheck)
  next hp => exact welIssue_stepped h hp
  next hp => exact takeVerdict_stepped h (.inl hp) fun _ hrest => hrest.finish (h.not_busReady nofun)

theorem execReadStatus_stepped (h : Stepping .readStatus s) (ht : execReadStatus s = .next t) : CsmStepped s t := by
  unfold execReadStatus at ht
  split at ht <;> cases ht
  next hp =>
    have hrest := h.rested hp
    exact failIf_stepped hrest.toQuiet fun hcheck => Rested.enter_unlatched { hrest with } h (checkBusUp_eq_none hcheck)
  next hp =>
    have hissued := issueRdsr_issued s
    have hsent := (h.rested hp).of_issued hissued (.inl (by simp))
    refine orTransport_stepped hsent.toQuiet fun _ => Rested.finish { hsent with } ?_
    change (issueRdsr s).2.reg.initState ≠ .busReady
    rw [hissued.reg]
    exact h.not_busReady nofun

theorem checkUninit_eq_none (h : checkUninit s = none) : s.reg.initState = .uninit := by
  unfold checkUninit at h
  split at h
  · cases h
  · exact not_not.1 ‹_›

/-- The bus is set up and the lifecycle state is BUS_READY, or the set-up fails (R421, R214). -/
theorem initBus_stepped (h : Stepping .init s) (hp : s.reg.phase = .busInit) : CsmStepped s (initBus s) := by
  have hquiet : Quiet s (takeResult s).2 := (h.rested hp).toQuiet.of_busOnly (takeResult_busOnly s)
  unfold initBus
  rcases hr : takeResult s with ⟨x, s0⟩
  rw [hr] at hquiet
  cases x with
  | ok =>
    rw [busInit_ok hr, orTransport_ok]
    have hup : Rested s { s0 with
        st.bus := .on (busSetup s.cfg), st.csht := s.cfg.cshtDefault, reg.initState := .busReady, st.sub := .cfgRd0,
        reg.phase := .frame } :=
      { hquiet with
        bus_on := by simp
        bus_ready := fun _ => hquiet.op.trans (op_of_encodeCmd h.op rfl)
        csht := congrArg Cfg.cshtDefault hquiet.cfg.symm }
    exact hup.enter_unlatched h rfl
  | xfail =>
    rw [busInit_xfail hr]
    exact hquiet.raise _ _

/-! ### The three frames of the configure sequence (R305): the WRVCR alone needs the latch -/

theorem configRead_stepped (h : Stepping .init s) (hp : s.reg.phase = .frame) : CsmStepped s (configRead s) := by
  have hissued := issueRdvcr_issued s
  have hsent := (h.rested hp).of_issued hissued (.inl (by simp))
  have hlife : lifecycleOk .init .welIssue (issueRdvcr s).2.reg.initState := hissued.reg ▸ h.lifecycle hp
  exact orTransport_stepped hsent.toQuiet fun _ => Rested.enter { hsent with } h hlife (hsub := fun _ => rfl)

theorem configWrite_stepped (h : Stepping .init s) (hp : s.reg.phase = .frame) (hsub : s.st.sub = .cfgWr) :
    CsmStepped s (configWrite s) := by
  have hissued := issueWrvcr_issued s.st.vcrProg s
  have hlatched : sendsLatched s := ⟨hp, .inr (.inr (.inr ⟨op_of_encodeCmd h.op rfl, hsub⟩))⟩
  have hsent := (h.rested hp).of_issued hissued (.inr hlatched)
  have hlife : lifecycleOk .init .frame (issueWrvcr s.st.vcrProg s).2.reg.initState := hissued.reg ▸ h.lifecycle hp
  exact orTransport_stepped hsent.toQuiet fun _ => Rested.enter_unlatched { hsent with } h hlife

theorem configReadBack_stepped (h : Stepping .init s) (hp : s.reg.phase = .frame) :
    CsmStepped s (configReadBack s) := by
  have hissued := issueRdvcr_issued s
  have hsent := (h.rested hp).of_issued hissued (.inl (by simp))
  have hlife : lifecycleOk .init .compare (issueRdvcr s).2.reg.initState := hissued.reg ▸ h.lifecycle hp
  exact orTransport_stepped hsent.toQuiet fun _ => Rested.enter { hsent with } h hlife (hsub := fun _ => trivial)

theorem configCompare_stepped (h : Stepping .init s) (hp : s.reg.phase = .compare) :
    CsmStepped s (configCompare s) := by
  have hrest := h.rested hp
  unfold configCompare
  split
  · exact hrest.toQuiet.raise _ _
  · have hlife : s.reg.initState = .busReady := h.lifecycle (q := .compare) hp
    have hready : Rested s { s with reg.initState := .ready } :=
      { hrest with bus_on := by simp [hrest.bus_on, hlife], bus_ready := nofun }
    exact hready.finish nofun

theorem execInit_stepped (h : Stepping .init s) (ht : execInit s = .next t) : CsmStepped s t := by
  unfold execInit at ht
  split at ht
  next hp =>
    cases ht
    have hrest := h.rested hp
    exact failIf_stepped hrest.toQuiet fun hcheck =>
      Rested.enter { hrest with } h (checkUninit_eq_none hcheck) (hsub := fun _ => trivial)
  next hp => cases ht; exact initBus_stepped h hp
  next hp => cases ht; exact welIssue_stepped h hp
  next hp => cases ht; exact welPoll_stepped h hp
  next hp =>
    split at ht <;> cases ht
    next => exact configRead_stepped h hp
    next hsub => exact configWrite_stepped h hp hsub
    next => exact configReadBack_stepped h hp
  next hp => cases ht; exact configCompare_stepped h hp
  next => cases ht

/-- A host command's step. -/
theorem exec_stepped {i : Instr} (h : Stepping i s) (ht : exec i s = .next t) : CsmStepped s t := by
  have hcmd : i.isCommand = true := isCommand_of_decodeCmd ((decodeCmd_setWidth s.st.op).trans h.op)
  cases i with
  | nop => exact execNop_stepped h ht
  | init => exact execInit_stepped h ht
  | deinit => exact execDeinit_stepped h ht
  | read => exact execRead_stepped h ht
  | write => exact execWrite_stepped h ht
  | erase => exact execErase_stepped h ht
  | eraseVerify => exact execEraseVerify_stepped h ht
  | systemError => exact execSystemError_stepped h ht
  | bulkErase => exact execBulkErase_stepped h ht
  | writeEnable => exact execWriteEnable_stepped h ht
  | readStatus => exact execReadStatus_stepped h ht
  | wren | rdsr | rdvcr | wrvcr | qiofr | eqpp | sse | se | be => cases hcmd

/-- The CSM's step under the control invariant: none, or one that `CsmStepped` describes. -/
theorem csmStep_stepped (h : ControlInv s) (ht : csmStep s = .next t) : t = s ∨ CsmStepped s t := by
  obtain rfl | ⟨hp, rfl⟩ | ⟨i, hop, hexec, hen, -, -, hpast⟩ := csmStep_cases h ht
  · exact .inl rfl
  · exact .inr ((rested_of_control h (by simp [csmEnabled, hp]) hp).toQuiet.raise _ _)
  · exact .inr (exec_stepped ⟨h, hop, hen, hpast⟩ hexec)

end Commands

/-! ## The other agents keep the control invariant -/

section Agents

variable {s t : State}

/-- The block's own part of the state stays: registers, hidden state, and the frames it sent under which command. -/
structure BlockKept (s t : State) : Prop where
  cfg : t.cfg = s.cfg := by rfl
  reg : t.reg = s.reg := by rfl
  st : t.st = s.st := by rfl
  log : t.out.busLog = s.out.busLog := by rfl
  commands : t.out.commands = s.out.commands := by rfl

theorem BlockKept.of_busOnly (h : BusOnly s t) : BlockKept s t := ⟨h.cfg, h.reg, h.st, h.log, h.commands⟩

theorem BlockKept.controlInv (h : BlockKept s t) (hc : ControlInv s) : ControlInv t :=
  controlInv_of_eq hc h.cfg h.reg h.st

theorem completeOp_blockKept (s : State) : BlockKept s (completeOp s) := by
  unfold completeOp
  split <;> exact {}

theorem busStep_blockKept (h : busStep s = .next t) : BlockKept s t := by
  unfold busStep at h
  split at h
  · cases h; exact {}
  · split at h
    next hdec =>
      obtain ⟨hcfg, hreg, hst, hlog, hcommands⟩ :=
        BlockKept.of_busOnly (busOnly_of_exec (not_isCommand_of_decodeFrame hdec) h)
      exact ⟨hcfg, hreg, hst, hlog, hcommands⟩
    next => cases h; exact {}

/-- A host access writes the register window, or leaves the block's own part alone. -/
theorem hostAccess_cases {op : HostOp} (h : hostAccess op s = .next t) :
    (∃ off v, t = writeWindow off v s) ∨ BlockKept s t := by
  cases op with
  | write off width v =>
    dsimp only [hostAccess] at h
    split at h <;> cases h
    exact .inl ⟨off, v, rfl⟩
  | read off width =>
    dsimp only [hostAccess] at h
    split at h <;> cases h
    exact .inr {}
  | wait => cases h; split <;> exact .inr {}
  | store a b => cases h; exact .inr {}
  | load a =>
    cases h
    obtain ⟨d, hd⟩ := takeByte_shape s
    unfold hostLoad
    dsimp only
    rw [hd]
    split <;> exact .inr {}

theorem hostStep_cases (h : hostStep s = .next t) :
    (∃ p off v, t = writeWindow off v { s with env.prog := p }) ∨ BlockKept s t := by
  unfold hostStep at h
  split at h
  · cases h; exact .inr {}
  · obtain ⟨off, v, rfl⟩ | ⟨hcfg, hreg, hst, hlog, hcommands⟩ := hostAccess_cases h
    · exact .inl ⟨_, off, v, rfl⟩
    · exact .inr ⟨hcfg, hreg, hst, hlog, hcommands⟩

/-- A completed transfer sets its flag, in the phase that waits for it; the scratch buffer keeps its length (R208,
R62). -/
theorem dmaStep_controlInv (hc : ControlInv s) : ControlInv (dmaStep s) := by
  rcases hd : s.st.dma with _ | ⟨dst, n, a, k⟩ | ⟨p, n, a⟩
  · rw [dmaStep_idle hd]; exact hc
  · cases hadm : dstAdmitted s.cfg n dst with
    | false => rw [dmaStep_rx_refused hd hadm]; exact hc
    | true =>
      obtain ⟨bs, d, hlen, -, hstep⟩ := dmaStep_rx_shape hd hadm
      have hphase := hc.rx_phase _ _ _ _ hd
      rw [hstep]
      cases dst with
      | host p => exact { hc with
          dma_flags := nofun, rx_phase := nofun, tx_phase := nofun, rx_scratch := nofun, rc_phase := fun _ => hphase }
      | scratch =>
        have hn := hc.rx_scratch _ _ _ hd
        exact { hc with
          dma_flags := nofun, rx_phase := nofun, tx_phase := nofun, rx_scratch := nofun, rc_phase := fun _ => hphase
          scratch_len := by simp [deposit, hlen, hn, hc.scratch_len] }
  · cases hadm : admits s.cfg p.toNat n with
    | false => rw [dmaStep_tx_refused hd hadm]; exact hc
    | true =>
      have hphase := hc.tx_phase _ _ _ hd
      have hresp := (txBytes_busOnly s p.toNat n).trans (respEqpp_busOnly _ a (txBytes p.toNat n s).1)
      have hc' := controlInv_of_eq hc hresp.cfg hresp.reg hresp.st
      rw [dmaStep_tx hd hadm]
      exact { hc' with
        dma_flags := nofun, rx_phase := nofun, tx_phase := nofun, rx_scratch := nofun
        tc_phase := fun _ => hresp.reg ▸ hphase }

/-- The voter's verdict ends the poll (R221). -/
theorem sampleStep_controlInv (hc : ControlInv s) : ControlInv (sampleStep s) := by
  cases ha : s.st.pollActive with
  | false => rw [sampleStep_of_not_active ha]; exact hc
  | true =>
    obtain ⟨v, d, t, -, rfl, hstep⟩ := sampleStep_of_active ha
    rw [hstep]
    split
    · exact { hc with }
    · exact { hc with poll_phase := nofun, poll_verdict := nofun }
    · exact { hc with poll_phase := nofun, poll_verdict := nofun }

theorem tickStep_controlInv (hc : ControlInv s) : ControlInv (tickStep s) := by
  unfold tickStep
  split
  · exact { hc with }
  · exact hc

/-- A command word is accepted where no command runs, and dropped elsewhere (R457). -/
theorem writeCmd_controlInv (hc : ControlInv s) (w : Word) : ControlInv (writeCmd w s) := by
  unfold writeCmd
  split
  next => exact { hc with }
  next hfree =>
    obtain ⟨hbusy, -⟩ := not_or.1 hfree
    have hnone := noCommand_of_control hc (Bool.eq_false_iff.2 hbusy)
    exact {
      busy_iff := by simp
      dma_flags := fun hd => absurd hnone.dma hd
      rx_phase := fun _ _ _ _ hd => by simp [hnone.dma] at hd
      tx_phase := fun _ _ _ hd => by simp [hnone.dma] at hd
      rx_scratch := fun _ _ _ hd => by simp [hnone.dma] at hd
      tc_phase := fun htc => absurd htc (by simp [acceptCmd, hnone.tc])
      rc_phase := fun hrc => absurd hrc (by simp [acceptCmd, hnone.rc])
      poll_phase := fun ha => absurd ha (by simp [acceptCmd, hnone.poll])
      poll_verdict := fun ha => absurd ha (by simp [acceptCmd, hnone.poll])
      csht_default := fun _ => hnone.csht
      op_cmd := fun _ => rfl
      bus_on := hnone.bus_on
      bus_ready := fun hr => absurd hr hnone.not_busReady
      past_check := fun _ hp => absurd rfl hp
      scratch_len := hnone.scratch_len }

/-- A write of STATUS moves the phase from HALTED only (R465). -/
theorem release_of_not_released {v : Word} (h : ¬ (v.getLsbD 2 = true ∧ s.reg.phase = .halted)) :
    release v s = { s with
      reg.done := s.reg.done && !v.getLsbD 1
      reg.err := s.reg.err && !v.getLsbD 2
      reg.ovr := s.reg.ovr && !v.getLsbD 3 } := by
  simp only [release, writeStatus, if_neg h]

theorem release_controlInv (hc : ControlInv s) (v : Word) : ControlInv (release v s) := by
  by_cases hfree : v.getLsbD 2 = true ∧ s.reg.phase = .halted
  · have hbusy : s.reg.busy = false := Bool.eq_false_iff.2 fun hb => (hc.busy_iff.1 hb).2 hfree.2
    have hnone : NoCommand (release v s) :=
      { noCommand_of_control hc hbusy with phase := .inl (if_pos hfree) }
    exact hnone.controlInv
  · rw [release_of_not_released hfree]
    exact { hc with }

theorem writeWindow_controlInv (hc : ControlInv s) (off : Nat) (v : Word) : ControlInv (writeWindow off v s) := by
  unfold writeWindow
  split
  next r _ =>
    cases r
    case cmd => exact writeCmd_controlInv hc v
    case status => exact release_controlInv hc v
    all_goals exact { hc with }
  next => exact hc

theorem blockReset_controlInv (s : State) : ControlInv (blockReset s) := by
  have hcfg : (blockReset s).cfg = s.cfg := (blockReset_keeps s).cfg
  have hnone : NoCommand (blockReset s) := {
    busy := rfl
    phase := .inl rfl
    dma := rfl
    tc := rfl
    rc := rfl
    poll := rfl
    csht := congrArg Cfg.cshtDefault hcfg.symm
    bus_on := by simp [blockReset, Regs.reset, Hidden.reset]
    not_busReady := nofun
    scratch_len := (length_takeBytes _ _).trans (congrArg Cfg.sectorSize hcfg.symm) }
  exact hnone.controlInv

/-- The step of an agent that does nothing while reset is asserted (R500). -/
theorem of_unless_inReset {P : State → Prop} {r : Result} (hs : P s) (hr : r = .next t → P t)
    (h : (if s.env.inReset then .next s else r) = .next t) : P t := by
  split at h
  · cases h; exact hs
  · exact hr h

theorem act_controlInv {a : Agent} (hc : ControlInv s) (h : act a s = .next t) : ControlInv t := by
  cases a with
  | csm =>
    refine of_unless_inReset hc (fun e => ?_) h
    obtain rfl | hstepped := csmStep_stepped hc e
    exacts [hc, hstepped.control]
  | dma => exact of_unless_inReset hc (fun e => by cases e; exact dmaStep_controlInv hc) h
  | sample => exact of_unless_inReset hc (fun e => by cases e; exact sampleStep_controlInv hc) h
  | host =>
    refine of_unless_inReset hc (fun e => ?_) h
    obtain ⟨p, off, v, rfl⟩ | hkept := hostStep_cases e
    · have htaken : ControlInv { s with env.prog := p } := { hc with }
      exact writeWindow_controlInv htaken off v
    · exact hkept.controlInv hc
  | tick => cases h; exact tickStep_controlInv hc
  | device => cases h; exact (completeOp_blockKept s).controlInv hc
  | bus => exact (busStep_blockKept h).controlInv hc
  | resetAssert => exact of_unless_inReset hc (fun e => by cases e; exact blockReset_controlInv s) h
  | resetRelease => cases h; exact { hc with }

end Agents

/-! ## The latch discipline (R302) -/

section Latch

variable {s t : State} {c : Cfg} {n : Nat} {it : BusItem} {log : List BusItem}

theorem opcWren_ne_opcRdsr (hv : c.Valid) : c.opcWren ≠ c.opcRdsr := fun h =>
  (List.nodup_cons.1 hv.opcodes_distinct).1 (by simp [h])

/-- WREN, RDSR, RDVCR and QIOFR need no latch: the nine opcodes are distinct (R158). -/
theorem needsLatch_eq_false (hv : c.Valid) {f : Frame}
    (hf : f.instr ∈ [c.opcWren, c.opcRdsr, c.opcRdvcr, c.opcQiofr]) : needsLatch c f = false := by
  have hsplit : c.opcodes.Perm ([c.opcWren, c.opcRdsr, c.opcRdvcr, c.opcQiofr] ++
      [c.opcWrvcr, c.opcEqpp, c.opcSse, c.opcSe, c.opcBe]) := .cons _ (.cons _ (.cons _ (.swap ..)))
  obtain ⟨-, -, hne⟩ := List.nodup_append.1 (hsplit.nodup hv.opcodes_distinct)
  have hout (o : Byte) (ho : o ∈ [c.opcWrvcr, c.opcEqpp, c.opcSse, c.opcSe, c.opcBe]) : f.instr ≠ o :=
    hne f.instr hf o ho
  simp_all [needsLatch]

theorem latchedBy_cons_wren (hv : c.Valid) (hw : it.frame.instr = c.opcWren) (hok : it.result = .ok)
    (hn : it.cmd = n) : latchedBy c n (it :: log) := by
  refine ⟨it, log, ?_, hw, hok, hn⟩
  rw [List.dropWhile_cons_of_neg]
  simpa [hw] using opcWren_ne_opcRdsr hv

/-- A status read leaves the latch to the WREN before it. -/
theorem latchedBy_cons_rdsr (hr : it.frame.instr = c.opcRdsr) (h : latchedBy c n log) :
    latchedBy c n (it :: log) := by
  unfold latchedBy
  rwa [List.dropWhile_cons_of_pos (by simp [hr])]

/-- The discipline speaks of each frame's instruction and command, not of its data. -/
theorem latchDiscipline_of_head {it' : BusItem} (hf : it'.frame.instr = it.frame.instr) (hn : it'.cmd = it.cmd)
    (h : latchDiscipline c (it :: log)) : latchDiscipline c (it' :: log) := by
  have hneeds : needsLatch c it'.frame = needsLatch c it.frame := by simp only [needsLatch, hf]
  unfold latchDiscipline at h ⊢
  rwa [hneeds, hn]

theorem latchDiscipline_fillRx (bytes : List Byte) (h : latchDiscipline c log) :
    latchDiscipline c (fillRx bytes log) := by
  cases log with
  | nil => exact h
  | cons it rest => exact latchDiscipline_of_head rfl rfl h

theorem latchDiscipline_fillTx (bytes : List Byte) (h : latchDiscipline c log) :
    latchDiscipline c (fillTx bytes log) := by
  cases log with
  | nil => exact h
  | cons it rest => exact latchDiscipline_of_head rfl rfl h

/-- Where no latch poll runs and no frame is next, only the frames already sent count. -/
theorem latchInv_of_phase (hc : ControlInv t) (hsent : latchDiscipline t.cfg t.out.busLog)
    (hpoll : t.reg.phase ≠ .welPoll) (hframe : t.reg.phase ≠ .frame) : LatchInv t where
  control := hc
  sent := hsent
  polls hp := absurd hp hpoll
  saw hp := absurd hp hpoll
  pending hs := absurd hs.1 hframe

theorem BlockKept.latchInv (hk : BlockKept s t) (h : LatchInv s) : LatchInv t := by
  obtain ⟨hcfg, hreg, hst, hlog, hcommands⟩ := hk
  obtain ⟨_, _, _, _, _, _, _, _, _, _⟩ := t
  subst hcfg hreg hst hlog hcommands
  exact { h with control := { h.control with } }

/-- The latch poll begins on this command's WREN, and the frame that needs the latch follows the MATCH. -/
theorem CsmStepped.latchInv (hs : CsmStepped s t) (hv : s.cfg.Valid) (h : LatchInv s) : LatchInv t where
  control := hs.control
  sent := by
    rw [hs.cfg]
    obtain hlog | ⟨it, hlog, hcmd, hf | hlatched⟩ := hs.sent
    · rw [hlog]; exact h.sent
    · rw [hlog]; exact ⟨fun hn => by simp [needsLatch_eq_false hv hf] at hn, h.sent⟩
    · rw [hlog]; exact ⟨fun _ => hcmd ▸ h.pending hlatched, h.sent⟩
  polls hp := by
    obtain ⟨-, hmask, hmatch, it, hlog, hwren, hok, hcmd⟩ := hs.polls hp
    rw [hs.cfg, hs.commands, hlog]
    exact ⟨latchedBy_cons_wren hv hwren hok hcmd, hmask, hmatch⟩
  saw hp hm := by
    obtain ⟨hnone, -⟩ := hs.polls hp
    simp [hnone] at hm
  pending hp := by
    obtain ⟨hpoll, hmatched, hlog⟩ := hs.pending hp
    obtain ⟨hlatched, -, -⟩ := h.polls hpoll
    rw [hs.cfg, hs.commands, hlog]
    exact ⟨hlatched, h.saw hpoll hmatched⟩

theorem match_of_voter {mask target sr : Byte} {budget elapsed : Word}
    (h : voter mask target budget elapsed sr = .matched) : sr &&& mask = target := by
  by_contra hne
  by_cases hb : budget ≤ elapsed
  · rw [voter_of_elapsed hne hb] at h; cases h
  · rw [voter_of_not_elapsed hne hb] at h; cases h

/-- A sample adds a status read to the log, and the verdict MATCH is that read's. -/
theorem sampleStep_logs (ha : s.st.pollActive = true) :
    ∃ v, (sampleStep s).cfg = s.cfg ∧ (sampleStep s).reg.phase = s.reg.phase ∧
      (sampleStep s).st.pollMask = s.st.pollMask ∧ (sampleStep s).st.pollMatch = s.st.pollMatch ∧
      (sampleStep s).out.commands = s.out.commands ∧
      (sampleStep s).out.busLog =
        { cmd := s.out.commands, frame := regInFrame s.cfg.opcRdsr, result := .ok, rx := [v] } :: s.out.busLog ∧
      ((sampleStep s).st.verdict = .matched → s.st.verdict = .matched ∨ v &&& s.st.pollMask = s.st.pollMatch) := by
  obtain ⟨v, d, t, -, rfl, hstep⟩ := sampleStep_of_active ha
  refine ⟨v, ?_⟩
  rw [hstep]
  split
  next => exact ⟨rfl, rfl, rfl, rfl, rfl, rfl, .inl⟩
  next hvote => exact ⟨rfl, rfl, rfl, rfl, rfl, rfl, fun _ => .inr (match_of_voter hvote)⟩
  next => exact ⟨rfl, rfl, rfl, rfl, rfl, rfl, nofun⟩

/-- What was latched before a status read stays latched, and the latch poll's MATCH is a read of the latch bit
(R301). -/
theorem sampleStep_latchInv (hv : s.cfg.Valid) (h : LatchInv s) : LatchInv (sampleStep s) := by
  cases ha : s.st.pollActive with
  | false => rw [sampleStep_of_not_active ha]; exact h
  | true =>
    obtain ⟨v, hcfg, hphase, hmask, hmatch, hcommands, hlog, hmatched⟩ := sampleStep_logs ha
    refine ⟨sampleStep_controlInv h.control, ?_, fun hp => ?_, fun hp hm => ?_, fun hs => ?_⟩
    · rw [hcfg, hlog]
      exact ⟨fun hn => by simp [needsLatch_eq_false hv (f := regInFrame s.cfg.opcRdsr) (by simp)] at hn, h.sent⟩
    · obtain ⟨hlatched, hwel⟩ := h.polls (hphase ▸ hp)
      rw [hcfg, hcommands, hlog, hmask, hmatch]
      exact ⟨latchedBy_cons_rdsr rfl hlatched, hwel⟩
    · obtain ⟨-, hwelMask, hwelMatch⟩ := h.polls (hphase ▸ hp)
      obtain hold | hread := hmatched hm
      · simp [h.control.poll_verdict ha] at hold
      · rw [hcfg, hlog]
        exact ⟨_, _, v, rfl, rfl, rfl, by rwa [hwelMask, hwelMatch] at hread⟩
    · obtain ⟨hframe, -⟩ := hs
      rw [hphase] at hframe
      rcases h.control.poll_phase ha with hp | hp <;> simp [hp] at hframe

/-- A transfer completes where no poll runs and no frame is pending. -/
theorem dmaStep_latchInv (h : LatchInv s) : LatchInv (dmaStep s) := by
  have hc := dmaStep_controlInv h.control
  rcases hd : s.st.dma with _ | ⟨dst, n, a, k⟩ | ⟨p, n, a⟩
  · rw [dmaStep_idle hd]; exact h
  · have hphase := h.control.rx_phase _ _ _ _ hd
    cases hadm : dstAdmitted s.cfg n dst with
    | false => rw [dmaStep_rx_refused hd hadm]; exact h
    | true =>
      obtain ⟨bs, d, -, -, hstep⟩ := dmaStep_rx_shape hd hadm
      have hkept : (dmaStep s).cfg = s.cfg ∧ (dmaStep s).reg = s.reg ∧
          (dmaStep s).out.busLog = fillRx bs s.out.busLog := by
        rw [hstep]
        cases dst <;> exact ⟨rfl, rfl, rfl⟩
      obtain ⟨hcfg, hreg, hlog⟩ := hkept
      exact latchInv_of_phase hc (by rw [hcfg, hlog]; exact latchDiscipline_fillRx bs h.sent) (by simp [hreg, hphase])
        (by simp [hreg, hphase])
  · have hphase := h.control.tx_phase _ _ _ hd
    cases hadm : admits s.cfg p.toNat n with
    | false => rw [dmaStep_tx_refused hd hadm]; exact h
    | true =>
      have hresp := (txBytes_busOnly s p.toNat n).trans (respEqpp_busOnly _ a (txBytes p.toNat n s).1)
      have hreg : (dmaStep s).reg = s.reg := by rw [dmaStep_tx hd hadm]; exact hresp.reg
      have hsent : latchDiscipline (dmaStep s).cfg (dmaStep s).out.busLog := by
        rw [dmaStep_tx hd hadm]
        exact hresp.cfg ▸ latchDiscipline_fillTx _ h.sent
      exact latchInv_of_phase hc hsent (by simp [hreg, hphase]) (by simp [hreg, hphase])

theorem tickStep_latchInv (h : LatchInv s) : LatchInv (tickStep s) := by
  unfold tickStep
  split
  · exact { h with control := { h.control with } }
  · exact h

theorem writeCmd_latchInv (h : LatchInv s) (w : Word) : LatchInv (writeCmd w s) := by
  have hc := writeCmd_controlInv h.control w
  unfold writeCmd at hc ⊢
  split
  next => exact { h with control := { h.control with } }
  next hfree =>
    rw [if_neg hfree] at hc
    exact latchInv_of_phase hc h.sent nofun nofun

theorem release_latchInv (h : LatchInv s) (v : Word) : LatchInv (release v s) := by
  by_cases hfree : v.getLsbD 2 = true ∧ s.reg.phase = .halted
  · have hidle : (release v s).reg.phase = .idle := if_pos hfree
    exact latchInv_of_phase (release_controlInv h.control v) h.sent (by simp [hidle]) (by simp [hidle])
  · rw [release_of_not_released hfree]
    exact { h with control := { h.control with } }

/-- A host write can only start a command, in CHECK, or release HALTED to IDLE: it reaches no poll and no frame. -/
theorem writeWindow_latchInv (h : LatchInv s) (off : Nat) (v : Word) : LatchInv (writeWindow off v s) := by
  unfold writeWindow
  split
  next r _ =>
    cases r
    case cmd => exact writeCmd_latchInv h v
    case status => exact release_latchInv h v
    all_goals exact { h with control := { h.control with } }
  next => exact h

theorem cutTransfer_busLog (s : State) : (cutTransfer s).out.busLog = s.out.busLog := by
  rcases hd : s.st.dma with _ | ⟨⟨p⟩ | _, n, a, k⟩ | ⟨p, n, a⟩
  · rw [cutTransfer_idle hd]
  · obtain ⟨bs, m, d, o, h, -⟩ := cutTransfer_rx hd
    rw [h]
  · rw [cutTransfer_scratch hd]
  · obtain ⟨d, h⟩ | ⟨m, d, -, -, h⟩ := cutTransfer_tx hd
    · rw [h]
    · rw [h]; exact (partEqpp_busOnly ..).log

theorem blockReset_latchInv (h : LatchInv s) : LatchInv (blockReset s) := by
  have hlog : (blockReset s).out.busLog = s.out.busLog :=
    (congrArg Ports.busLog (takeBytes_out ..)).trans (cutTransfer_busLog s)
  have hsent : latchDiscipline (blockReset s).cfg (blockReset s).out.busLog := by
    rw [(blockReset_keeps s).cfg, hlog]
    exact h.sent
  exact latchInv_of_phase (blockReset_controlInv s) hsent nofun nofun

theorem act_latchInv {a : Agent} (hv : s.cfg.Valid) (h : LatchInv s) (hact : act a s = .next t) : LatchInv t := by
  cases a with
  | csm =>
    refine of_unless_inReset h (fun e => ?_) hact
    obtain rfl | hstepped := csmStep_stepped h.control e
    exacts [h, hstepped.latchInv hv h]
  | dma => exact of_unless_inReset h (fun e => by cases e; exact dmaStep_latchInv h) hact
  | sample => exact of_unless_inReset h (fun e => by cases e; exact sampleStep_latchInv hv h) hact
  | host =>
    refine of_unless_inReset h (fun e => ?_) hact
    obtain ⟨p, off, v, rfl⟩ | hkept := hostStep_cases e
    · have htaken : BlockKept s { s with env.prog := p } := {}
      exact writeWindow_latchInv (htaken.latchInv h) off v
    · exact hkept.latchInv h
  | tick => cases hact; exact tickStep_latchInv h
  | device => cases hact; exact (completeOp_blockKept s).latchInv h
  | bus => exact (busStep_blockKept hact).latchInv h
  | resetAssert => exact of_unless_inReset h (fun e => by cases e; exact blockReset_latchInv h) hact
  | resetRelease => cases hact; exact BlockKept.latchInv (s := s) {} h

end Latch

/-- Settles O52: taking the agent leaves the block's own part alone; the CSM begins a latch poll on its WREN and sends
a frame that needs the latch on the MATCH, the sequencer adds status reads, and no other agent reaches a poll or a
frame. -/
theorem stepKeepsLatchDiscipline : Obligations.StepKeepsLatchDiscipline := by
  intro s s' hv h hstep
  obtain ⟨a, ag, d, hact⟩ := step_inv hstep
  have htaken : LatchInv { s with env.agenda := ag, env.draws := d } := BlockKept.latchInv (s := s) {} h
  exact act_latchInv (s := { s with env.agenda := ag, env.draws := d }) hv htaken hact

/-! ## Results and verdicts -/

section Verdicts

variable {s s0 : State} {info : Word} {k : State → State}

theorem takeResult_shape {r : XResult} (h : takeResult s = (r, s0)) : ∃ d, s0 = { s with env.draws := d } := by
  unfold takeResult at h
  split at h <;> cases h <;> exact ⟨_, rfl⟩

theorem takeVerdict_of_timeout (h : s.st.verdict = .timeout) :
    takeVerdict info k s = failed .timeout info { s with st.verdict := .none } := by
  simp only [takeVerdict, h]
  rfl

theorem takeVerdict_of_matched (h : s.st.verdict = .matched) :
    takeVerdict info k s = k { s with st.verdict := .none } := by
  simp only [takeVerdict, h]

end Verdicts

/-! ## write_enable (R300, R301) and wait_operation_complete (R304) -/

section Polls

variable {s : State} {i : Instr}

theorem exec_welIssue (hi : i ∈ [Instr.init, .write, .erase, .bulkErase, .writeEnable]) (hp : s.reg.phase = .welIssue) :
    exec i s = .next (welIssue (failInfo i s) s) := by
  simp only [List.mem_cons, List.not_mem_nil, or_false] at hi
  rcases hi with rfl | rfl | rfl | rfl | rfl
  · simp only [exec, execInit, hp]; rfl
  · simp only [exec, execWrite, hp]; rfl
  · simp only [exec, execErase, hp]; rfl
  · simp only [exec, execBulkErase, hp]; rfl
  · simp only [exec, execWriteEnable, hp]; rfl

theorem exec_welPoll (hi : i ∈ [Instr.init, .write, .erase, .bulkErase]) (hp : s.reg.phase = .welPoll) :
    exec i s = .next (takeVerdict (failInfo i s) (toPhase .frame) s) := by
  simp only [List.mem_cons, List.not_mem_nil, or_false] at hi
  rcases hi with rfl | rfl | rfl | rfl
  · simp only [exec, execInit, hp]; rfl
  · simp only [exec, execWrite, hp]; rfl
  · simp only [exec, execErase, hp]; rfl
  · simp only [exec, execBulkErase, hp]; rfl

theorem exec_writeEnable_welPoll (hp : s.reg.phase = .welPoll) :
    exec .writeEnable s = .next (takeVerdict 0 finish s) := by simp only [exec, execWriteEnable, hp]

theorem exec_busyPoll (hi : i ∈ [Instr.write, .erase]) (hp : s.reg.phase = .busyPoll) :
    exec i s = .next (takeVerdict (failInfo i s) (toPhase .advance) s) := by
  simp only [List.mem_cons, List.not_mem_nil, or_false] at hi
  rcases hi with rfl | rfl
  · simp only [exec, execWrite, hp]; rfl
  · simp only [exec, execErase, hp]; rfl

theorem exec_bulkErase_busyPoll (hp : s.reg.phase = .busyPoll) :
    exec .bulkErase s = .next (takeVerdict 0 finish s) := by simp only [exec, execBulkErase, hp]

end Polls

/-- Settles O22: the step is `welIssue` of the command's failure information, and a failed WREN acts or not. -/
theorem welIssueSendsWrenAndPolls : Obligations.WelIssueSendsWrenAndPolls := by
  intro i s s0 hi hp
  rw [exec_welIssue hi hp]
  constructor
  · intro hok
    obtain ⟨d, rfl⟩ := takeResult_shape hok
    simp only [welIssue, issueWren, issue_ok hok, orTransport_ok, logFrame_cfg, respWren_cfg]
    rfl
  · intro hfail
    obtain ⟨d, hnone | ⟨k, hacted⟩⟩ :=
      failedFrame_cases (fun _ => respWren) (logFrame (bareFrame s.cfg.opcWren) .xfail [] s0)
    · refine ⟨_, ⟨d, rfl⟩, .inl ?_⟩
      rw [welIssue, issueWren, issue_xfail hfail, hnone]
      rfl
    · refine ⟨_, ⟨d, rfl⟩, .inr ?_⟩
      rw [welIssue, issueWren, issue_xfail hfail, hacted]
      rfl

/-- Settles O23: the step takes the verdict, and goes on to FRAME or ends WRITE_ENABLE. -/
theorem welPollConsumesTheVerdict : Obligations.WelPollConsumesTheVerdict := by
  intro i s hi hp
  by_cases hw : i = .writeEnable
  · subst hw
    rw [exec_writeEnable_welPoll hp]
    refine ⟨fun hv => ?_, fun _ hne => absurd rfl hne, fun hv _ => ?_⟩
    · rw [takeVerdict_of_timeout hv]; rfl
    · rw [takeVerdict_of_matched hv]; rfl
  · rw [exec_welPoll (by simpa [hw] using hi) hp]
    refine ⟨fun hv => ?_, fun hv _ => ?_, fun _ he => absurd he hw⟩
    · rw [takeVerdict_of_timeout hv]
    · rw [takeVerdict_of_matched hv]; rfl

/-- Settles O24: the step takes the verdict, and goes on to ADVANCE or ends BULK_ERASE. -/
theorem busyPollConsumesTheVerdict : Obligations.BusyPollConsumesTheVerdict := by
  intro i s hi hp
  by_cases hb : i = .bulkErase
  · subst hb
    rw [exec_bulkErase_busyPoll hp]
    refine ⟨fun hv => ?_, fun _ hne => absurd rfl hne, fun hv _ => ?_⟩
    · rw [takeVerdict_of_timeout hv]; rfl
    · rw [takeVerdict_of_matched hv]; rfl
  · rw [exec_busyPoll (by simpa [hb] using hi) hp]
    refine ⟨fun hv => ?_, fun hv _ => ?_, fun _ he => absurd he hb⟩
    · rw [takeVerdict_of_timeout hv]
    · rw [takeVerdict_of_matched hv]; rfl

/-! ## configure_device (R305, R306) -/

section Configure

variable {s s0 : State}

theorem exec_init_compare (hp : s.reg.phase = .compare) : exec .init s = .next (configCompare s) := by
  simp only [exec, execInit, hp]

theorem exec_init_cfgRd0 (hp : s.reg.phase = .frame) (hsub : s.st.sub = .cfgRd0) :
    exec .init s = .next (configRead s) := by simp only [exec, execInit, hp, hsub]

theorem exec_init_cfgWr (hp : s.reg.phase = .frame) (hsub : s.st.sub = .cfgWr) :
    exec .init s = .next (configWrite s) := by simp only [exec, execInit, hp, hsub]

theorem exec_init_cfgRd1 (hp : s.reg.phase = .frame) (hsub : s.st.sub = .cfgRd1) :
    exec .init s = .next (configReadBack s) := by simp only [exec, execInit, hp, hsub]

/-- The device drives one byte, its VCR where it is idle (R254, R251). -/
theorem respRdvcr_shape (s : State) :
    ∃ v d, respRdvcr s = { s with env.draws := d, out.busRx := [v] } ∧
      (s.dev.op = .none → v = s.dev.vcr ∧ d = s.env.draws) := by
  by_cases hidle : s.dev.op = .none
  · exact ⟨_, _, respRdvcr_of_idle hidle, fun _ => ⟨rfl, rfl⟩⟩
  · obtain ⟨v, d, h⟩ := respRdvcr_of_busy hidle
    exact ⟨v, d, h, fun h => absurd h hidle⟩

theorem issueRdvcr_ok (h : takeResult s = (.ok, s0)) :
    ∃ v d, issueRdvcr s =
        (.ok, { sent (regInFrame s.cfg.opcRdvcr) .ok [v] s0 with env.draws := d, out.busRx := [v] }) ∧
      (s0.dev.op = .none → v = s0.dev.vcr ∧ d = s0.env.draws) := by
  obtain ⟨v, d, hresp, hidle⟩ := respRdvcr_shape s0
  refine ⟨v, d, ?_, hidle⟩
  rw [issueRdvcr, issue_ok h, hresp]
  rfl

theorem issueRdvcr_xfail (h : takeResult s = (.xfail, s0)) :
    ∃ d, issueRdvcr s = (.xfail, { sent (regInFrame s.cfg.opcRdvcr) .xfail [] s0 with env.draws := d }) := by
  obtain ⟨d, hfail | ⟨k, hfail⟩⟩ := failedFrame_cases noEffect (logFrame (regInFrame s.cfg.opcRdvcr) .xfail [] s0)
  all_goals exact ⟨d, by rw [issueRdvcr, issue_xfail h, hfail]; rfl⟩

/-- A WRVCR cut anywhere: no effect on a busy or unlatched device, else the new or the old VCR and a settled latch
(R204, R255). -/
theorem partWrvcr_shape (v : Byte) (k : Nat) (s : State) :
    ∃ d dv, partWrvcr v k s = { s with env.draws := d, dev := dv } ∧
      (dv = s.dev ∨ (s.dev.op = .none ∧ s.dev.wel = true ∧
        ∃ v' w, dv = { s.dev with vcr := v', wel := w } ∧ (v' = v ∨ v' = s.dev.vcr) ∧
          (∀ b, s.cfg.wrvcrClearsWel = some b → w = !b))) := by
  by_cases hlatched : s.dev.op = .none ∧ s.dev.wel = true
  · obtain ⟨hidle, hwel⟩ := hlatched
    cases k with
    | zero =>
      obtain ⟨w, d, hsettled, hw⟩ := settleWel_shape s
      refine ⟨d, _, ?_, .inr ⟨hidle, hwel, s.dev.vcr, w, rfl, .inr rfl, hw⟩⟩
      rw [partWrvcr, respWrvcrNoData, if_pos ⟨hidle, hwel⟩, hsettled]
    | succ k =>
      obtain ⟨w, d, hsettled, hw⟩ := settleWel_shape { s with dev.vcr := v }
      refine ⟨d, _, ?_, .inr ⟨hidle, hwel, v, w, rfl, .inl rfl, hw⟩⟩
      rw [partWrvcr, respWrvcr_of_latched v hidle hwel, hsettled]
  · refine ⟨s.env.draws, s.dev, ?_, .inl rfl⟩
    cases k with
    | zero => rw [partWrvcr, respWrvcrNoData, if_neg hlatched]
    | succ k => rw [partWrvcr, respWrvcr, if_neg hlatched]

end Configure

/-- Settles O21: the step is `configCompare`, which tests the dummy fields. -/
theorem initComparesTheReadBack : Obligations.InitComparesTheReadBack := by
  intro s hp
  rw [exec_init_compare hp]
  refine ⟨fun hne => ?_, fun heq => ?_⟩
  · rw [configCompare, if_pos hne]; rfl
  · rw [configCompare, if_neg (not_not.2 heq)]; rfl

/-- Settles O20: one frame's issue in each of the three steps, by its result and by what the device makes of it. -/
theorem initConfiguresTheDevice : Obligations.InitConfiguresTheDevice := by
  intro s s0 hp
  refine ⟨_, _, rfl, rfl, fun hok hsub => ?_, fun hok hsub => ⟨fun hidle hwel => ?_, fun hignored => ?_⟩,
    fun hok hsub => ?_, fun hfail hsub => ?_, fun hfail hsub => ?_⟩
  · obtain ⟨v, d, hissue, hvcr⟩ := issueRdvcr_ok hok
    obtain ⟨d0, rfl⟩ := takeResult_shape hok
    refine ⟨v, d, ?_, hvcr⟩
    rw [exec_init_cfgRd0 hp hsub, configRead, hissue]
    rfl
  · obtain ⟨d0, rfl⟩ := takeResult_shape hok
    obtain ⟨w, d, hsettled, hw⟩ :=
      settleWel_shape { s with env.draws := d0, dev.vcr := s.st.vcrProg }
    refine ⟨w, d, ?_, hw⟩
    rw [exec_init_cfgWr hp hsub, configWrite, issueWrvcr, issue_ok hok,
      respWrvcr_of_latched (s := { s with env.draws := d0 }) _ hidle hwel, hsettled]
    rfl
  · obtain ⟨d0, rfl⟩ := takeResult_shape hok
    rw [exec_init_cfgWr hp hsub, configWrite, issueWrvcr, issue_ok hok,
      respWrvcr_ignored (s := { s with env.draws := d0 }) _ hignored]
    rfl
  · obtain ⟨v, d, hissue, hvcr⟩ := issueRdvcr_ok hok
    obtain ⟨d0, rfl⟩ := takeResult_shape hok
    refine ⟨v, d, ?_, hvcr⟩
    rw [exec_init_cfgRd1 hp hsub, configReadBack, hissue]
    rfl
  · obtain ⟨d, hissue⟩ := issueRdvcr_xfail hfail
    refine ⟨d, ?_⟩
    rcases hsub with hsub | hsub
    · rw [exec_init_cfgRd0 hp hsub, configRead, hissue]; rfl
    · rw [exec_init_cfgRd1 hp hsub, configReadBack, hissue]; rfl
  · obtain ⟨d0, rfl⟩ := takeResult_shape hfail
    rw [exec_init_cfgWr hp hsub, configWrite, issueWrvcr, issue_xfail hfail]
    obtain ⟨d, hnone | ⟨k, hpart⟩⟩ := failedFrame_cases (partWrvcr s.st.vcrProg)
      (logFrame (regOutFrame s.cfg.opcWrvcr s.st.vcrProg) .xfail [] { s with env.draws := d0 })
    · exact ⟨d, s.dev, by rw [hnone]; rfl, .inl rfl⟩
    · obtain ⟨d', dv, hshape, hdv⟩ := partWrvcr_shape s.st.vcrProg k
        { logFrame (regOutFrame s.cfg.opcWrvcr s.st.vcrProg) .xfail [] { s with env.draws := d0 } with env.draws := d }
      exact ⟨d', dv, by rw [hpart, hshape]; rfl, hdv⟩

end Sys2Proof.Proofs
end

section
/-! Control commands (44_control_commands.md): NOP, DEINIT, SYSTEM_ERROR, READ_STATUS and the first steps of the others;
a whole INIT turn by turn. -/

namespace Sys2Proof.Proofs

open Sys2Proof Sys2Proof.Machine Sys2Proof.Spec

/-! ## The CHECK step of the control commands (R420 to R425, R375) -/

section Check

variable {s : State}

theorem exec_nop_check (hp : s.reg.phase = .check) : exec .nop s = .next (finish s) := by
  simp only [exec, execNop, hp]

theorem exec_systemError_check (hp : s.reg.phase = .check) :
    exec .systemError s = .next (finish (hook s.reg.ecode s)) := by simp only [exec, execSystemError, hp]

theorem exec_deinit_check (hp : s.reg.phase = .check) : exec .deinit s = .next (deinitCheck s) := by
  simp only [exec, execDeinit, hp]

theorem exec_init_check (hp : s.reg.phase = .check) (hinit : s.reg.initState = .uninit) :
    exec .init s = .next (toPhase .busInit s) := by
  have hpass : checkUninit s = none := if_neg (not_not.2 hinit)
  simp only [exec, execInit, hp, hpass, failIf]

theorem exec_bulkErase_check (hp : s.reg.phase = .check) (hready : s.reg.initState = .ready) :
    exec .bulkErase s = .next (toPhase .welIssue s) := by
  have hpass : checkReady s = none := if_neg (not_not.2 hready)
  simp only [exec, execBulkErase, hp, hpass, failIf]

theorem exec_writeEnable_check (hp : s.reg.phase = .check) (hup : s.reg.initState ≠ .uninit) :
    exec .writeEnable s = .next (toPhase .welIssue s) := by
  have hpass : checkBusUp s = none := if_neg hup
  simp only [exec, execWriteEnable, hp, hpass, failIf]

theorem exec_readStatus_check (hp : s.reg.phase = .check) (hup : s.reg.initState ≠ .uninit) :
    exec .readStatus s = .next (toPhase .frame s) := by
  have hpass : checkBusUp s = none := if_neg hup
  simp only [exec, execReadStatus, hp, hpass, failIf]

end Check

/-- Settles O15: in the lifecycle state it needs, each command's check passes. -/
theorem checkStartsTheCommand : Obligations.CheckStartsTheCommand := fun _ hp =>
  ⟨exec_init_check hp, exec_bulkErase_check hp, exec_writeEnable_check hp, exec_readStatus_check hp⟩

/-- Settles O16: the step is `finish`. -/
theorem nopCompletes : Obligations.NopCompletes := fun _ hp => exec_nop_check hp

/-- Settles O17: the step is the hook on ECODE, then `finish`. -/
theorem systemErrorRecordsAndCompletes : Obligations.SystemErrorRecordsAndCompletes := fun _ hp =>
  exec_systemError_check hp

/-- Settles O18: `deinitCheck` turns the bus off only where it is configured. -/
theorem deinitCompletes : Obligations.DeinitCompletes := by
  intro s hp
  rw [exec_deinit_check hp]
  refine ⟨fun hoff => ?_, fun hon => ?_⟩
  · rw [deinitCheck, if_pos hoff]; rfl
  · rw [deinitCheck, if_neg hon]; rfl

/-! ## BUS_INIT (R421, R214) -/

theorem exec_init_busInit {s : State} (hp : s.reg.phase = .busInit) : exec .init s = .next (initBus s) := by
  simp only [exec, execInit, hp]

/-- Settles O19: the step is `initBus`, by the result of the bus set-up. -/
theorem initSetsUpTheBus : Obligations.InitSetsUpTheBus := by
  intro s s0 hp
  rw [exec_init_busInit hp]
  refine ⟨fun hok => ?_, fun hfail => ?_⟩
  · rw [initBus, busInit_ok hok]; rfl
  · rw [initBus, busInit_xfail hfail]; rfl

/-! ## READ_STATUS (R425) -/

section ReadStatus

variable {s s0 : State}

theorem exec_readStatus_frame (hp : s.reg.phase = .frame) : exec .readStatus s = .next (statusFrame s) := by
  simp only [exec, execReadStatus, hp]

theorem issueRdsr_ok (h : takeResult s = (.ok, s0)) :
    ∃ other d, issueRdsr s =
      (.ok, { sent (regInFrame s.cfg.opcRdsr) .ok [srByte s0.cfg s0.dev other] s0 with
        env.draws := d
        out.busRx := [srByte s0.cfg s0.dev other] }) := by
  obtain ⟨d, hresp⟩ := respRdsr_shape s0
  refine ⟨(takeByte s0).1, d, ?_⟩
  rw [issueRdsr, issue_ok h, hresp]
  rfl

/-- A failed status read changes nothing of the device (R204). -/
theorem issueRdsr_xfail (h : takeResult s = (.xfail, s0)) :
    ∃ d, issueRdsr s = (.xfail, { sent (regInFrame s.cfg.opcRdsr) .xfail [] s0 with env.draws := d }) := by
  obtain ⟨d, hfail | ⟨k, hfail⟩⟩ := failedFrame_cases noEffect (logFrame (regInFrame s.cfg.opcRdsr) .xfail [] s0)
  all_goals exact ⟨d, by rw [issueRdsr, issue_xfail h, hfail]; rfl⟩

end ReadStatus

/-- Settles O25: one RDSR's issue by its result; the byte it drives shows the busy bit and the latch. -/
theorem readStatusCompletes : Obligations.ReadStatusCompletes := by
  intro s s0 hv hp
  rw [exec_readStatus_frame hp]
  refine ⟨fun hok => ?_, fun hfail => ?_⟩
  · obtain ⟨other, d, hissue⟩ := issueRdsr_ok hok
    obtain ⟨d0, rfl⟩ := takeResult_shape hok
    refine ⟨srByte s.cfg s.dev other, d, ?_, srByte_wip hv _ _, srByte_wel hv _ _⟩
    rw [statusFrame, hissue]
    rfl
  · obtain ⟨d, hissue⟩ := issueRdsr_xfail hfail
    exact ⟨d, by rw [statusFrame, hissue]; rfl⟩

/-! ## The dummy field that `configure` programs (R154, R305) -/

section DummyField

variable {c : Cfg}

theorem vcrProgram_others (v : Byte) : vcrProgram c v &&& ~~~c.vcrDcMask = v &&& ~~~c.vcrDcMask := by
  unfold vcrProgram
  ext i hi
  cases hm : c.vcrDcMask[i] <;> simp [hm]

theorem vcrProgram_field (v : Byte) :
    vcrProgram c v &&& c.vcrDcMask = BitVec.ofNat 8 (c.dummyCycles <<< c.vcrDcShift) &&& c.vcrDcMask := by
  unfold vcrProgram
  ext i hi
  cases hm : c.vcrDcMask[i] <;> simp [hm]

/-- The dummy count fits the field, so the field keeps all of it (R6). -/
theorem dummyCycles_and_field (hv : c.Valid) :
    c.dummyCycles <<< c.vcrDcShift &&& c.vcrDcMask.toNat = c.dummyCycles <<< c.vcrDcShift := by
  obtain ⟨w, -, hmask⟩ := hv.vcr_field
  have hfits := hv.dummy_fits
  rw [← Nat.shiftLeft_eq] at hmask
  rw [hmask, Nat.shiftLeft_shiftRight] at hfits
  have hlt : c.dummyCycles < 2 ^ w := by have := Nat.two_pow_pos w; omega
  rw [hmask, ← Nat.shiftLeft_and_distrib, Nat.and_two_pow_sub_one_of_lt_two_pow hlt]

theorem vcrDummy_vcrProgram (hv : c.Valid) (v : Byte) : vcrDummy c (vcrProgram c v) = c.dummyCycles := by
  have hand := dummyCycles_and_field hv
  have hlt : c.dummyCycles <<< c.vcrDcShift < 2 ^ 8 := by
    rw [← hand]
    exact lt_of_le_of_lt Nat.and_le_right c.vcrDcMask.isLt
  rw [vcrDummy, vcrProgram_field, BitVec.toNat_and, BitVec.toNat_ofNat, Nat.mod_eq_of_lt hlt, hand,
    Nat.shiftLeft_shiftRight]

end DummyField

/-! ## The results still to come (R202)

A drawn number or byte uses none of the results that the coming frames take. -/

section Results

variable (s : State)

theorem settleWel_results : (settleWel s).env.draws.results = s.env.draws.results := by
  unfold settleWel takeChoice
  split
  · rfl
  · split <;> rfl

theorem takeByte_results : (takeByte s).2.env.draws.results = s.env.draws.results := by
  unfold takeByte
  split <;> rfl

/-- The sample step draws no result: its frame cannot fail (R220). -/
theorem sampleStep_results : (sampleStep s).env.draws.results = s.env.draws.results := by
  have hread := takeByte_results s
  unfold sampleStep
  split
  · dsimp only
    split <;> exact hread
  · rfl

variable {s} {s0 : State}

/-- A WRVCR that the device executes: the VCR is the byte sent, the latch as the draw or the parameter says. -/
theorem issueWrvcr_ok (v : Byte) (h : takeResult s = (.ok, s0)) (hidle : s0.dev.op = .none)
    (hwel : s0.dev.wel = true) :
    ∃ w d, issueWrvcr v s =
        (.ok, { sent (regOutFrame s.cfg.opcWrvcr v) .ok [] s0 with env.draws := d, dev.vcr := v, dev.wel := w }) ∧
      d.results = s0.env.draws.results := by
  obtain ⟨w, d, hsettled, -⟩ := settleWel_shape { s0 with dev.vcr := v }
  have hkept := settleWel_results { s0 with dev.vcr := v }
  rw [hsettled] at hkept
  refine ⟨w, d, ?_, hkept⟩
  rw [issueWrvcr, issue_ok h, respWrvcr_of_latched v hidle hwel, hsettled]
  rfl

end Results

/-! ## A whole INIT, turn by turn (R421, R305, R306) -/

/-- INIT has come from `s0` to `s`, past its CHECK: the phase, what is still scheduled and still to be drawn, and what
every turn up to here has left alone. -/
structure Initializing (s0 s : State) (turns : List Agent) (results : List XResult) (p : Phase) : Prop where
  cfg : s.cfg = s0.cfg
  mem : s.mem = s0.mem
  array : s.dev.array = s0.dev.array
  idle : s.dev.op = .none
  op : s.st.op = 1
  inReset : s.env.inReset = false
  agenda : s.env.agenda = turns
  results : s.env.draws.results = results
  phase : s.reg.phase = p

/-- INIT configures the device with the bus on: the sequence is at step `b`, the device's VCR is `v`, the value to
program is `w` (R305). -/
structure Configuring (s0 s : State) (turns : List Agent) (results : List XResult) (p : Phase) (b : Sub) (v w : Byte) :
    Prop extends Initializing s0 s turns results p where
  bus : s.st.bus ≠ .off
  sub : s.st.sub = b
  vcr : s.dev.vcr = v
  prog : s.st.vcrProg = w

section Init

variable {s0 s : State} {rest : List Agent} {rs : List XResult} {p : Phase} {v w : Byte}

namespace Initializing

/-- The CSM's turn in a phase past CHECK is INIT's step. -/
theorem step_csm (h : Initializing s0 s (.csm :: rest) rs p) (hp : p ≠ .check) (hen : csmEnabled s = true) :
    step s = exec .init (taken rest s) := by
  have hpast : s.reg.phase ≠ .check := h.phase ▸ hp
  refine stepRunsTheDecodedCommand s rest .init ⟨h.agenda, h.inReset⟩ hen ?_
  rw [if_neg hpast, h.op]
  rfl

/-- CHECK goes to BUS_INIT. -/
theorem of_check (hturn : csmNext s rest) (hresults : s.env.draws.results = rs) (hp : s.reg.phase = .check)
    (hcmd : s.reg.cmd = 1) (hop : s.st.op = 1) (hinit : s.reg.initState = .uninit) (hidle : s.dev.op = .none) :
    ∃ t, step s = .next t ∧ Initializing s t rest rs .busInit ∧ t.dev.vcr = s.dev.vcr := by
  have hdec : decodeCmd (fetchWord s) = .ok .init := by
    simp only [fetchWord, hp, if_true, hcmd]
    rfl
  have hstep := stepRunsTheDecodedCommand s rest .init hturn (by simp only [csmEnabled, hp]) hdec
  refine ⟨toPhase .busInit (taken rest s), hstep.trans (exec_init_check hp hinit), ?_, rfl⟩
  exact { cfg := rfl, mem := rfl, array := rfl, idle := hidle, op := hop, inReset := hturn.2, agenda := rfl,
          results := hresults, phase := rfl }

/-- BUS_INIT turns the bus on and goes to the first frame. -/
theorem busInit (h : Initializing s0 s (.csm :: rest) (.ok :: rs) .busInit) :
    ∃ t, step s = .next t ∧ Configuring s0 t rest rs .frame .cfgRd0 s.dev.vcr s.st.vcrProg := by
  have hstep := h.step_csm (by decide) (by simp only [csmEnabled, h.phase])
  have hnext := (initSetsUpTheBus (taken rest s) _ h.phase).1 (takeResult_of_cons h.results)
  exact ⟨_, hstep.trans hnext,
    { h with agenda := rfl, results := rfl, phase := rfl, bus := nofun, sub := rfl, vcr := rfl, prog := rfl }⟩

end Initializing

namespace Configuring

/-- CFG_RD0 forms the value to program from the VCR it reads. -/
theorem cfgRd0 (h : Configuring s0 s (.csm :: rest) (.ok :: rs) .frame .cfgRd0 v w) :
    ∃ t, step s = .next t ∧ Configuring s0 t rest rs .welIssue .cfgWr v (vcrProgram s0.cfg v) := by
  have hstep := h.step_csm (by decide) (by simp only [csmEnabled, h.phase])
  obtain ⟨v', d, hissue, hvcr⟩ := issueRdvcr_ok (takeResult_of_cons (s := taken rest s) h.results)
  obtain ⟨rfl, rfl⟩ := hvcr h.idle
  refine ⟨_, hstep.trans (exec_init_cfgRd0 h.phase h.sub), ?_⟩
  rw [configRead, hissue]
  exact { h with agenda := rfl, results := rfl, phase := rfl, sub := rfl, prog := by rw [← h.cfg, ← h.vcr]; rfl }

/-- The WREN of WEL_ISSUE sets the latch of the idle device, and the latch poll starts. -/
theorem welIssue (h : Configuring s0 s (.csm :: rest) (.ok :: rs) .welIssue .cfgWr v w) :
    ∃ t, step s = .next t ∧ Configuring s0 t rest rs .welPoll .cfgWr v w ∧ t.dev.wel = true ∧
      t.st.pollActive = true ∧ t.st.pollMask = s0.cfg.srWelMask ∧ t.st.pollMatch = s0.cfg.srWelMask := by
  have hstep := h.step_csm (by decide) (by simp only [csmEnabled, h.phase])
  have hnext := (welIssueSendsWrenAndPolls .init (taken rest s) _ (by decide) h.phase).1 (takeResult_of_cons h.results)
  rw [latched, if_pos (show (taken rest s).dev.op = .none from h.idle)] at hnext
  refine ⟨_, hstep.trans hnext, ?_, rfl, rfl, ?_, ?_⟩
  · exact { h with agenda := rfl, results := rfl, phase := rfl }
  · exact congrArg Cfg.srWelMask h.cfg
  · exact congrArg Cfg.srWelMask h.cfg

/-- A sample of the set latch gives the verdict MATCH (R220, R221). -/
theorem sample (h : Configuring s0 s (.sample :: rest) rs .welPoll .cfgWr v w) (hv : s0.cfg.Valid)
    (hwel : s.dev.wel = true) (hactive : s.st.pollActive = true) (hmask : s.st.pollMask = s0.cfg.srWelMask)
    (hmatch : s.st.pollMatch = s0.cfg.srWelMask) :
    ∃ t, step s = .next t ∧ Configuring s0 t rest rs .welPoll .cfgWr v w ∧ t.dev.wel = true ∧
      t.st.verdict = .matched := by
  obtain ⟨sr, d, hsr, t, rfl, hmatched, -, -⟩ := sampleStepVotes s rest h.agenda h.inReset hactive
  have hlatched : sr &&& s.st.pollMask = s.st.pollMatch := by
    rw [hsr, hmask, hmatch, ← h.cfg, srByte_wel (h.cfg ▸ hv), if_pos hwel]
  have hstep := hmatched hlatched
  have hresults : d.results = rs := by
    have hkept := sampleStep_results (taken rest s)
    rw [Host.Outcome.next.inj ((step_of_sampleNext h.agenda h.inReset).symm.trans hstep)] at hkept
    exact hkept.trans h.results
  exact ⟨_, hstep, { h with agenda := rfl, results := hresults }, hwel, rfl⟩

/-- WEL_POLL consumes the verdict MATCH. -/
theorem welPoll (h : Configuring s0 s (.csm :: rest) rs .welPoll .cfgWr v w) (hverdict : s.st.verdict = .matched) :
    ∃ t, step s = .next t ∧ Configuring s0 t rest rs .frame .cfgWr v w ∧ t.dev.wel = s.dev.wel := by
  have hstep := h.step_csm (by decide) (by simp only [csmEnabled, h.phase, hverdict]; decide)
  have hnext := (welPollConsumesTheVerdict .init (taken rest s) (by decide) h.phase).2.1 hverdict nofun
  exact ⟨_, hstep.trans hnext, { h with agenda := rfl, phase := rfl }, rfl⟩

/-- CFG_WR programs the VCR of the latched device. -/
theorem cfgWr (h : Configuring s0 s (.csm :: rest) (.ok :: rs) .frame .cfgWr v w) (hwel : s.dev.wel = true) :
    ∃ t, step s = .next t ∧ Configuring s0 t rest rs .frame .cfgRd1 w w := by
  have hstep := h.step_csm (by decide) (by simp only [csmEnabled, h.phase])
  obtain ⟨wel, d, hissue, hresults⟩ :=
    issueWrvcr_ok w (takeResult_of_cons (s := taken rest s) h.results) h.idle hwel
  refine ⟨_, hstep.trans (exec_init_cfgWr h.phase h.sub), ?_⟩
  rw [configWrite, show (taken rest s).st.vcrProg = w from h.prog, hissue]
  exact { h with agenda := rfl, results := hresults, phase := rfl, sub := rfl, vcr := rfl }

/-- CFG_RD1 reads back the VCR. -/
theorem cfgRd1 (h : Configuring s0 s (.csm :: rest) (.ok :: rs) .frame .cfgRd1 v w) :
    ∃ t, step s = .next t ∧ Configuring s0 t rest rs .compare .cfgRd1 v w ∧ t.reg.devVcr = v := by
  have hstep := h.step_csm (by decide) (by simp only [csmEnabled, h.phase])
  obtain ⟨v', d, hissue, hvcr⟩ := issueRdvcr_ok (takeResult_of_cons (s := taken rest s) h.results)
  obtain ⟨rfl, rfl⟩ := hvcr h.idle
  refine ⟨_, hstep.trans (exec_init_cfgRd1 h.phase h.sub), ?_⟩
  rw [configReadBack, hissue]
  exact ⟨{ h with agenda := rfl, results := rfl, phase := rfl }, h.vcr⟩

/-- COMPARE finds the value programmed, and the block is READY. -/
theorem compare (h : Configuring s0 s (.csm :: rest) rs .compare .cfgRd1 v v) (hread : s.reg.devVcr = v) :
    step s = .next (done { taken rest s with reg.initState := .ready }) := by
  have hstep := h.step_csm (by decide) (by simp only [csmEnabled, h.phase])
  refine hstep.trans ((initComparesTheReadBack (taken rest s) h.phase).2 ?_)
  have hsame : (taken rest s).reg.devVcr = (taken rest s).st.vcrProg := hread.trans h.prog.symm
  rw [hsame]

end Configuring

end Init

/-- Settles O56: the nine turns of INIT one after the other; the value programmed differs from the VCR read in the dummy
field alone. -/
theorem initMakesTheBlockReady : Obligations.InitMakesTheBlockReady := by
  intro s rest rs hv hagenda hreset hresults hp hcmd hop hinit hidle
  obtain ⟨s1, run1, h1, hvcr1⟩ := Initializing.of_check ⟨hagenda, hreset⟩ hresults hp hcmd hop hinit hidle
  obtain ⟨s2, run2, h2⟩ := h1.busInit
  obtain ⟨s3, run3, h3⟩ := h2.cfgRd0
  obtain ⟨s4, run4, h4, hwel4, hactive, hmask, hmatch⟩ := h3.welIssue
  obtain ⟨s5, run5, h5, hwel5, hverdict⟩ := h4.sample hv hwel4 hactive hmask hmatch
  obtain ⟨s6, run6, h6, hwel6⟩ := h5.welPoll hverdict
  obtain ⟨s7, run7, h7⟩ := h6.cfgWr (hwel6.trans hwel5)
  obtain ⟨s8, run8, h8, hread⟩ := h7.cfgRd1
  have run9 := h8.compare hread
  have hvcr : s8.dev.vcr = vcrProgram s.cfg s.dev.vcr := hvcr1 ▸ h8.vcr
  refine ⟨done { taken rest s8 with reg.initState := .ready }, ?_, rfl, rfl, rfl, rfl, rfl, rfl, h8.bus, ?_, ?_,
    hread.trans h8.vcr.symm, h8.array, h8.mem, rfl⟩
  · rw [run_succ run1, run_succ run2, run_succ run3, run_succ run4, run_succ run5, run_succ run6, run_succ run7,
      run_succ run8, run_succ run9]
    rfl
  · exact (congrArg (· &&& ~~~s.cfg.vcrDcMask) hvcr).trans (vcrProgram_others _)
  · exact (congrArg (vcrDummy s.cfg) hvcr).trans (vcrDummy_vcrProgram hv _)

end Sys2Proof.Proofs
end

section
/-! Exceptions (60_exceptions.md): the host's writes to CMD and STATUS, the checks of CHECK in their order, and that
every step keeps the control invariant. -/

namespace Sys2Proof.Proofs

open Sys2Proof Sys2Proof.Machine Sys2Proof.Spec

/-! ## The control invariant -/

/-- Settles O50: taking the agent leaves registers and hidden state alone, and every agent keeps the invariant. -/
theorem stepKeepsControl : Obligations.StepKeepsControl := by
  intro s s' h hstep
  obtain ⟨a, ag, d, hact⟩ := step_inv hstep
  have htaken : ControlInv { s with env.agenda := ag, env.draws := d } := controlInv_of_eq h rfl rfl rfl
  exact act_controlInv htaken hact

/-! ## The checks of CHECK (R455, R456) -/

section Checks

variable {s : State} {i : Instr} {code : ErrCode} {info : Word}

theorem cmdOp_eq_extractLsb' (w : Word) : cmdOp w = w.extractLsb' 0 4 := BitVec.setWidth_eq_extractLsb' (by decide)

/-- The opcodes from 0xB on are reserved (R153). -/
theorem toNat_lt_of_decodeOp {op : BitVec 4} (h : decodeOp op = .ok i) : op.toNat < 0xB := by
  unfold decodeOp at h
  split at h <;> cases h <;> omega

/-- A command word with a reserved bit set or a reserved opcode is no instruction (R153). -/
theorem decodeCmd_of_reserved {w : Word} (h : cmdRsv w ≠ 0 ∨ 0xB ≤ (cmdOp w).toNat) :
    ∃ e, decodeCmd w = .error e := by
  unfold decodeCmd
  split
  next => exact ⟨_, rfl⟩
  next hrsv =>
    cases hdec : decodeOp (cmdOp w) with
    | error e => exact ⟨e, rfl⟩
    | ok i => exact absurd (toNat_lt_of_decodeOp hdec) (Nat.not_lt.2 (h.resolve_left hrsv))

/-- In CHECK a word that is no instruction fails, before any other check (R455). -/
theorem csmStep_check_illegal {e : DecodeError} (hp : s.reg.phase = .check) (h : decodeCmd s.reg.cmd = .error e) :
    csmStep s = .next (failed .illegalCmd s.reg.cmd s) := by
  have hfetch : fetchWord s = s.reg.cmd := if_pos hp
  simp only [csmStep, csmEnabled, hp, hfetch, h, if_true]
  rfl

/-- A command's CHECK step: the lifecycle check, then the operand checks, then the command's own step. -/
theorem exec_check (hi : i.isCommand = true) (hp : s.reg.phase = .check) :
    ∃ k, exec i s = .next (failIf ((lifecycleFailure i s).or (operandFailure i s)) k s) := by
  have hor (x y : Option CheckFailure) : (x <|> y) = x.or y := Option.orElse_eq_or
  cases i with
  | nop => exact ⟨finish, exec_nop_check hp⟩
  | deinit => exact ⟨deinitCheck, exec_deinit_check hp⟩
  | systemError => exact ⟨fun t => finish (hook t.reg.ecode t), exec_systemError_check hp⟩
  | init => exact ⟨toPhase .busInit, by simp only [exec, execInit, hp, operandFailure, Option.or_none]; rfl⟩
  | read => exact ⟨readCheck, by simp only [exec, execRead, hp, hor]; rfl⟩
  | write => exact ⟨writeCheck, by simp only [exec, execWrite, hp, hor]; rfl⟩
  | erase => exact ⟨eraseCheck, by simp only [exec, execErase, hp, hor]; rfl⟩
  | eraseVerify => exact ⟨verifyCheck, by simp only [exec, execEraseVerify, hp, hor]; rfl⟩
  | bulkErase =>
    exact ⟨toPhase .welIssue, by simp only [exec, execBulkErase, hp, operandFailure, Option.or_none]; rfl⟩
  | writeEnable =>
    exact ⟨toPhase .welIssue, by simp only [exec, execWriteEnable, hp, operandFailure, Option.or_none]; rfl⟩
  | readStatus =>
    exact ⟨toPhase .frame, by simp only [exec, execReadStatus, hp, operandFailure, Option.or_none]; rfl⟩
  | wren | rdsr | rdvcr | wrvcr | qiofr | eqpp | sse | se | be => cases hi

/-- The first check that fails is reported, and the failure sequence is the whole step. -/
theorem exec_check_failed (hi : i.isCommand = true) (hp : s.reg.phase = .check)
    (h : (lifecycleFailure i s).or (operandFailure i s) = some (code, info)) :
    exec i s = .next (failed code info s) := by
  obtain ⟨k, hexec⟩ := exec_check hi hp
  rw [hexec, h]
  rfl

/-- The commands that R455 checks for nothing but the word itself succeed in CHECK. -/
theorem exec_unchecked (hi : i ∈ [Instr.nop, .deinit, .systemError]) (hp : s.reg.phase = .check) :
    ∃ t, exec i s = .next (finish t) := by
  simp only [List.mem_cons, List.not_mem_nil, or_false] at hi
  rcases hi with rfl | rfl | rfl
  exacts [⟨_, exec_nop_check hp⟩, ⟨_, exec_deinit_check hp⟩, ⟨_, exec_systemError_check hp⟩]

/-- READ, WRITE, ERASE and ERASE_VERIFY pass the lifecycle check in READY. -/
theorem lifecycleFailure_of_ready (hi : i ∈ [Instr.read, .write, .erase, .eraseVerify])
    (hready : s.reg.initState = .ready) : lifecycleFailure i s = none := by
  simp only [List.mem_cons, List.not_mem_nil, or_false] at hi
  rcases hi with rfl | rfl | rfl | rfl <;> exact if_neg (not_not.2 hready)

end Checks

/-- Settles O13: the word itself, then the lifecycle state; no check depends on the agenda. -/
theorem commonChecksInOrder : Obligations.CommonChecksInOrder := by
  intro s rest hnext hp
  rw [← cmdOp_eq_extractLsb']
  refine ⟨fun hillegal => ?_, fun i hrsv hop => ?_⟩
  · obtain ⟨e, hdec⟩ := decodeCmd_of_reserved hillegal
    rw [step_of_csmNext hnext, csmStep_check_illegal (s := taken rest s) hp hdec]
    rfl
  · have hdec : decodeCmd s.reg.cmd = .ok i := (if_neg (not_not.2 hrsv)).trans hop
    have hstep : step s = exec i (taken rest s) :=
      stepRunsTheDecodedCommand s rest i hnext (by simp only [csmEnabled, hp]) (by rwa [if_pos hp])
    refine ⟨fun code info hfail => ?_, fun hi => ?_⟩
    · have hfirst : (lifecycleFailure i (taken rest s)).or (operandFailure i (taken rest s)) = some (code, info) := by
        rw [show lifecycleFailure i (taken rest s) = some (code, info) from hfail]
        rfl
      exact hstep.trans (exec_check_failed (isCommand_of_decodeCmd hdec) hp hfirst)
    · obtain ⟨t, hexec⟩ := exec_unchecked (s := taken rest s) hi hp
      exact ⟨finish t, hstep.trans hexec, finish_reg_err t, finish_reg_done t⟩

/-- Settles O14: in READY the lifecycle check passes, and the operand check that fails first decides. -/
theorem operandChecksInOrder : Obligations.OperandChecksInOrder := by
  intro i s code info hi hp hready hfail
  have hcmd : i.isCommand = true := by
    simp only [List.mem_cons, List.not_mem_nil, or_false] at hi
    rcases hi with rfl | rfl | rfl | rfl <;> rfl
  have hfirst : (lifecycleFailure i s).or (operandFailure i s) = some (code, info) := by
    rw [lifecycleFailure_of_ready hi hready, hfail]
    rfl
  exact exec_check_failed hcmd hp hfirst

/-! ## The host's writes of CMD and STATUS (R457, R465) -/

/-- A host write of an aligned word of the window is the whole step. -/
theorem step_hostWrite {s : State} {rest : List Agent} {p : List HostOp} {off : Nat} {v : Word}
    (h : hostNext (.write off 4 v) p s rest) (ha : off % 4 = 0) (hw : off < 256) :
    step s = .next (writeWindow off v { s with env.agenda := rest, env.prog := p }) := by
  rw [step_of_hostNext h, hostAccess_write (badAccess_eq_none ha hw)]

/-- Settles O8: the write is dropped or accepted by the two branches of `writeCmd`. -/
theorem commandWriteAcceptedOrDropped : Obligations.CommandWriteAcceptedOrDropped := by
  intro s rest p w hnext
  have hstep : step s = .next (writeCmd w { s with env.agenda := rest, env.prog := p }) :=
    step_hostWrite hnext rfl (by decide)
  refine ⟨_, rfl, fun hbusy => ?_, fun hfree => ?_⟩
  · rw [hstep, writeCmd, if_pos hbusy]
  · rw [hstep, writeCmd, if_neg hfree]
    rfl

/-- A write-1-to-clear bit (R42). -/
theorem and_not_eq_ite (b c : Bool) : (b && !c) = if c then false else b := by cases c <;> simp

/-- Settles O9: the write is `release`, each flag kept where the word has a 0. -/
theorem statusWriteClearsAndReleases : Obligations.StatusWriteClearsAndReleases := by
  intro s rest p w hnext
  have hstep : step s = .next (release w { s with env.agenda := rest, env.prog := p }) :=
    step_hostWrite hnext rfl (by decide)
  rw [hstep]
  simp only [release, writeStatus, and_not_eq_ite]

end Sys2Proof.Proofs
end

section
/-! Block I/O (43_block_io.md), the write-split engine: no page program straddles a page. -/

namespace Sys2Proof.Proofs

open Sys2Proof Sys2Proof.Machine Sys2Proof.Spec

/-! ## What frames, polls, transfers and failures leave of the hidden state (R60) -/

/-- The parameters, the latched opcode and the split engine's cursor, end and chunk. -/
def engine (s : State) : Cfg × BitVec 4 × Word × Word × Word :=
  (s.cfg, s.st.op, s.st.cur, s.st.stop, s.st.chunk)

section Engine

variable {s t u : State} {r : XResult × State} {k : State → State} {info : Word} {f : Frame}

theorem engine_of_busOnly (h : BusOnly s t) : engine t = engine s := by simp only [engine, h.cfg, h.st]

theorem engine_of_issued (h : Issued f s r) : engine r.2 = engine s := by simp only [engine, h.cfg, h.st]

theorem engine_op (h : engine t = engine s) : t.st.op = s.st.op := congrArg (fun e => e.2.1) h

theorem engine_ite {p : Prop} [Decidable p] (ht : engine t = engine s) (hu : engine u = engine s) :
    engine (if p then t else u) = engine s := by split <;> assumption

theorem orTransport_engine (hr : engine r.2 = engine s) (hk : ∀ u, engine (k u) = engine u) :
    engine (orTransport info r k) = engine s := by
  obtain ⟨x, u⟩ := r
  cases x with
  | ok => exact (hk u).trans hr
  | xfail => exact hr

theorem takeVerdict_engine (hk : ∀ u, engine (k u) = engine u) : engine (takeVerdict info k s) = engine s := by
  unfold takeVerdict
  split
  · rfl
  · rfl
  · exact hk _

theorem waitTx_engine (hk : ∀ u, engine (k u) = engine u) : engine (waitTx k s) = engine s := engine_ite (hk _) rfl

theorem waitRx_engine (hk : ∀ u, engine (k u) = engine u) : engine (waitRx k s) = engine s := engine_ite (hk _) rfl

theorem welIssue_engine (info : Word) (s : State) : engine (welIssue info s) = engine s :=
  orTransport_engine (engine_of_issued (issueWren_issued s)) fun _ => rfl

theorem startDma_engine {d : Dma} {part : Nat → State → State} (hp : ∀ k t, BusOnly t (part k t)) (s : State) :
    engine (startDma d part s).2 = engine s := by
  obtain ⟨s0, h0, h⟩ | ⟨s0, h0, h⟩ := startDma_cases (d := d) hp s <;>
    simp only [h, engine, h0.cfg, h0.st]

theorem startRead_engine (dst : DmaDst) (n : Nat) (s : State) : engine (startRead dst n s) = engine s :=
  have hcsht : engine (if s.cfg.cshtToggle then { s with st.csht := s.cfg.cshtRead } else s) = engine s :=
    engine_ite rfl rfl
  orTransport_engine ((engine_of_issued (issueQiofr_issued ..)).trans hcsht) fun u =>
    orTransport_engine (startDma_engine (fun _ => BusOnly.refl) u) fun _ => rfl

theorem writeFrame_engine (s : State) : engine (writeFrame s) = engine s :=
  orTransport_engine (engine_of_issued (issueEqpp_issued ..)) fun u =>
    orTransport_engine (startDma_engine (fun k t => partEqpp_busOnly t _ _ _ k) u) fun _ => rfl

theorem eraseFrameStep_engine (s : State) : engine (eraseFrameStep s) = engine s :=
  engine_ite (orTransport_engine (engine_of_issued (issueSse_issued ..)) fun _ => rfl)
    (orTransport_engine (engine_of_issued (issueSe_issued ..)) fun _ => rfl)

theorem initBus_engine (s : State) : engine (initBus s) = engine s := by
  have h0 := engine_of_busOnly (takeResult_busOnly s)
  refine orTransport_engine ?_ fun _ => rfl
  unfold busInit
  dsimp only
  split <;> exact h0

/-! ### No command's step changes the latched opcode -/

theorem failIf_op {e : Option CheckFailure} (hk : (k s).st.op = s.st.op) : (failIf e k s).st.op = s.st.op := by
  cases e with
  | none => exact hk
  | some c => rfl

theorem ite_op {p : Prop} [Decidable p] (ht : t.st.op = s.st.op) (hu : u.st.op = s.st.op) :
    (if p then t else u).st.op = s.st.op := by split <;> assumption

theorem execInit_op (h : execInit s = .next t) : t.st.op = s.st.op := by
  unfold execInit at h
  split at h
  · cases h; exact failIf_op rfl
  · cases h; exact engine_op (initBus_engine s)
  · cases h; exact engine_op (welIssue_engine ..)
  · cases h; exact engine_op (takeVerdict_engine fun _ => rfl)
  · split at h <;> cases h
    · exact engine_op (orTransport_engine (engine_of_issued (issueRdvcr_issued s)) fun _ => rfl)
    · exact engine_op (orTransport_engine (engine_of_issued (issueWrvcr_issued _ s)) fun _ => rfl)
    · exact engine_op (orTransport_engine (engine_of_issued (issueRdvcr_issued s)) fun _ => rfl)
  · cases h; exact ite_op rfl rfl
  · cases h

theorem execRead_op (h : execRead s = .next t) : t.st.op = s.st.op := by
  unfold execRead at h
  split at h <;> cases h
  · exact failIf_op (ite_op rfl rfl)
  · exact engine_op (startRead_engine ..)
  · exact engine_op (waitRx_engine fun _ => rfl)

theorem execWrite_op (h : execWrite s = .next t) : t.st.op = s.st.op := by
  unfold execWrite at h
  split at h <;> cases h
  · exact failIf_op (ite_op rfl rfl)
  · exact engine_op (welIssue_engine ..)
  · exact engine_op (takeVerdict_engine fun _ => rfl)
  · exact engine_op (writeFrame_engine s)
  · exact engine_op (waitTx_engine fun _ => rfl)
  · exact engine_op (takeVerdict_engine fun _ => rfl)
  · exact ite_op rfl rfl

theorem execErase_op (h : execErase s = .next t) : t.st.op = s.st.op := by
  unfold execErase at h
  split at h <;> cases h
  · exact failIf_op (ite_op rfl rfl)
  · exact engine_op (welIssue_engine ..)
  · exact engine_op (takeVerdict_engine fun _ => rfl)
  · exact engine_op (eraseFrameStep_engine s)
  · exact engine_op (takeVerdict_engine fun _ => rfl)
  · exact ite_op rfl rfl

theorem execBulkErase_op (h : execBulkErase s = .next t) : t.st.op = s.st.op := by
  unfold execBulkErase at h
  split at h <;> cases h
  · exact failIf_op rfl
  · exact engine_op (welIssue_engine ..)
  · exact engine_op (takeVerdict_engine fun _ => rfl)
  · exact engine_op (orTransport_engine (engine_of_issued (issueBe_issued s)) fun _ => rfl)
  · exact engine_op (takeVerdict_engine fun _ => rfl)

theorem execEraseVerify_op (h : execEraseVerify s = .next t) : t.st.op = s.st.op := by
  unfold execEraseVerify at h
  split at h <;> cases h
  · exact failIf_op rfl
  · exact engine_op (startRead_engine ..)
  · exact engine_op (waitRx_engine fun _ => rfl)
  · unfold verifyCompare
    split <;> rfl
  · exact ite_op rfl rfl

theorem execWriteEnable_op (h : execWriteEnable s = .next t) : t.st.op = s.st.op := by
  unfold execWriteEnable at h
  split at h <;> cases h
  · exact failIf_op rfl
  · exact engine_op (welIssue_engine ..)
  · exact engine_op (takeVerdict_engine fun _ => rfl)

theorem execReadStatus_op (h : execReadStatus s = .next t) : t.st.op = s.st.op := by
  unfold execReadStatus at h
  split at h <;> cases h
  · exact failIf_op rfl
  · exact engine_op (orTransport_engine (engine_of_issued (issueRdsr_issued s)) fun _ => rfl)

theorem execDeinit_op (h : execDeinit s = .next t) : t.st.op = s.st.op := by
  unfold execDeinit at h
  split at h <;> cases h
  have hbus : (if s.st.bus = .off then s else busDeinit s).st.op = s.st.op := ite_op rfl rfl
  exact hbus

theorem exec_op {i : Instr} (hi : i.isCommand = true) (h : exec i s = .next t) : t.st.op = s.st.op := by
  cases i with
  | nop => dsimp only [exec, execNop] at h; split at h <;> cases h; rfl
  | init => exact execInit_op h
  | deinit => exact execDeinit_op h
  | read => exact execRead_op h
  | write => exact execWrite_op h
  | erase => exact execErase_op h
  | eraseVerify => exact execEraseVerify_op h
  | systemError => dsimp only [exec, execSystemError] at h; split at h <;> cases h; rfl
  | bulkErase => exact execBulkErase_op h
  | writeEnable => exact execWriteEnable_op h
  | readStatus => exact execReadStatus_op h
  | wren | rdsr | rdvcr | wrvcr | qiofr | eqpp | sse | se | be => cases hi

end Engine

/-! ## The law of the chunk (R358, R361, R364) -/

section Chunk

variable {s t : State}

theorem toNat_w32 {n : Nat} (h : n < 2 ^ 32) : (w32 n).toNat = n := by
  rw [BitVec.toNat_ofNat, Nat.mod_eq_of_lt h]

theorem chunkOk_of_engine (h : ChunkOk s) (he : engine t = engine s) : ChunkOk t := by
  simp only [engine, Prod.mk.injEq] at he
  obtain ⟨hcfg, -, hcur, hstop, hchunk⟩ := he
  obtain ⟨hpos, hpage, hwithin, hlaw, hcap, hcur4, hstop4, hchunk4⟩ := h
  constructor <;> simpa only [hcfg, hcur, hstop, hchunk]

/-- A chunk formed by the law from a cursor and an end in whole words, the cursor before the end. -/
theorem chunkOk_of_firstChunk {cur stop : Nat} (hv : s.cfg.Valid) (hlt : cur < stop) (hcap : stop ≤ s.cfg.capacity)
    (hcur4 : cur % 4 = 0) (hstop4 : stop % 4 = 0) (hcur : s.st.cur = w32 cur) (hstop : s.st.stop = w32 stop)
    (hchunk : s.st.chunk = w32 (firstChunk s.cfg.pageSize cur stop)) : ChunkOk s := by
  obtain ⟨hpos, hpage, hwithin, hword⟩ :=
    firstChunk_bounds s.cfg.pageSize cur stop hv.page_words hv.page_ge hcur4 hstop4 hlt
  have h24 := hv.capacity_le
  have hcur' : s.st.cur.toNat = cur := by rw [hcur]; exact toNat_w32 (by omega)
  have hstop' : s.st.stop.toNat = stop := by rw [hstop]; exact toNat_w32 (by omega)
  have hchunk' : s.st.chunk.toNat = firstChunk s.cfg.pageSize cur stop := by
    rw [hchunk]; exact toNat_w32 (by omega)
  constructor <;> simp only [hcur', hstop', hchunk', withinPage] <;> assumption

/-- Where the request goes on past the law's chunk, a page begins (R364). -/
theorem mod_page_of_firstChunk_lt {page cur stop : Nat} (hpage : 0 < page)
    (hlt : cur + firstChunk page cur stop < stop) : (cur + firstChunk page cur stop) % page = 0 := by
  have hchunk : firstChunk page cur stop = page - cur % page := by unfold firstChunk at hlt ⊢; omega
  have hnext : cur + (page - cur % page) = page * (cur / page + 1) := by
    have hdiv := Nat.div_add_mod cur page
    have hmod := Nat.mod_lt cur hpage
    rw [Nat.mul_add_one]
    omega
  rw [hchunk, hnext, Nat.mul_mod_right]

/-- From a page's begin on the two laws agree. -/
theorem firstChunk_of_mod_eq_zero {page cur stop : Nat} (h : cur % page = 0) :
    firstChunk page cur stop = nextChunk page cur stop := by rw [firstChunk, nextChunk, h, Nat.sub_zero]

/-- The CHECK of WRITE passed: the request begins and ends in whole words within the array (R456, R113). -/
theorem checkTransfer_eq_none (hv : s.cfg.Valid) (h : checkTransfer s = none) :
    toDeviceOffset s.cfg s.reg.addr.toNat % 4 = 0 ∧
      (0 < s.reg.wcount.toNat → toDeviceOffset s.cfg s.reg.addr.toNat + byteLength s ≤ s.cfg.capacity) := by
  unfold checkTransfer at h
  split at h
  · cases h
  split at h
  · cases h
  split at h
  · cases h
  next hrange hword hend =>
    have hbias := hv.bias_aligned
    have hlow := hv.low_ge
    have hhigh := hv.high_le
    have hcap := hv.capacity_pos
    unfold toDeviceOffset
    omega

theorem writeCheck_of_empty (h : byteLength s = 0) :
    writeCheck s = finish { s with
      st.cur := w32 (toDeviceOffset s.cfg s.reg.addr.toNat)
      st.stop := w32 (toDeviceOffset s.cfg s.reg.addr.toNat + byteLength s)
      st.ptr := s.reg.ptr } := if_pos (by omega)

theorem writeCheck_of_nonempty (h : byteLength s ≠ 0) :
    writeCheck s = toPhase .welIssue { s with
      st.cur := w32 (toDeviceOffset s.cfg s.reg.addr.toNat)
      st.stop := w32 (toDeviceOffset s.cfg s.reg.addr.toNat + byteLength s)
      st.ptr := s.reg.ptr
      st.chunk := w32 (firstChunk s.cfg.pageSize (toDeviceOffset s.cfg s.reg.addr.toNat)
        (toDeviceOffset s.cfg s.reg.addr.toNat + byteLength s)) } := if_neg (by omega)

theorem writeAdvance_of_end (h : s.st.cur + s.st.chunk = s.st.stop) :
    writeAdvance s = finish { s with
      st.cur := s.st.cur + s.st.chunk
      st.ptr := s.st.ptr + s.st.chunk } := if_pos h

theorem writeAdvance_of_not_end (h : s.st.cur + s.st.chunk ≠ s.st.stop) :
    writeAdvance s = toPhase .welIssue { s with
      st.cur := s.st.cur + s.st.chunk
      st.ptr := s.st.ptr + s.st.chunk
      st.chunk := w32 (nextChunk s.cfg.pageSize (s.st.cur + s.st.chunk).toNat s.st.stop.toNat) } := if_neg h

/-- The CHECK of WRITE forms the first chunk (R358). -/
theorem writeCheck_chunkOk (hv : s.cfg.Valid) (h : checkTransfer s = none) (hsome : byteLength s ≠ 0) :
    ChunkOk (writeCheck s) := by
  obtain ⟨hcur4, hcap⟩ := checkTransfer_eq_none hv h
  have hlen : byteLength s = 4 * s.reg.wcount.toNat := rfl
  rw [writeCheck_of_nonempty hsome]
  exact chunkOk_of_firstChunk hv (by omega) (hcap (by omega)) hcur4 (by omega) rfl rfl rfl

/-- Where the request goes on past a chunk, its cursor and pointer in whole words, the next chunk begins a page. -/
theorem mod_page_of_chunkOk (hv : s.cfg.Valid) (h : ChunkOk s)
    (hlt : s.st.cur.toNat + s.st.chunk.toNat < s.st.stop.toNat) :
    (s.st.cur.toNat + s.st.chunk.toNat) % s.cfg.pageSize = 0 := by
  have hpage := hv.page_ge
  have hlaw := h.law
  rw [hlaw] at hlt ⊢
  exact mod_page_of_firstChunk_lt (by omega) hlt

/-- The chunk's end does not wrap (R102). -/
theorem toNat_chunk_end (hv : s.cfg.Valid) (h : ChunkOk s) :
    (s.st.cur + s.st.chunk).toNat = s.st.cur.toNat + s.st.chunk.toNat := by
  have hwithin := h.within
  have hcap := h.stop_le
  have h24 := hv.capacity_le
  exact BitVec.toNat_add_of_lt (by omega)

theorem w32_toNat (w : Word) : w32 w.toNat = w := BitVec.eq_of_toNat_eq (toNat_w32 w.isLt)

/-- A chunk that is not the last ends before the request does. -/
theorem chunk_end_lt (hv : s.cfg.Valid) (h : ChunkOk s) (hmore : s.st.cur + s.st.chunk ≠ s.st.stop) :
    s.st.cur.toNat + s.st.chunk.toNat < s.st.stop.toNat :=
  lt_of_le_of_ne h.within fun he => hmore (BitVec.eq_of_toNat_eq ((toNat_chunk_end hv h).trans he))

/-- The ADVANCE of WRITE forms the next one (R364). -/
theorem writeAdvance_chunkOk (hv : s.cfg.Valid) (h : ChunkOk s) (hmore : s.st.cur + s.st.chunk ≠ s.st.stop) :
    ChunkOk (writeAdvance s) := by
  have hlt := chunk_end_lt hv h hmore
  have hstart := mod_page_of_chunkOk hv h hlt
  rw [← toNat_chunk_end hv h] at hlt hstart
  obtain ⟨-, -, -, -, hcap, hcur4, hstop4, hchunk4⟩ := h
  have hend4 : (s.st.cur + s.st.chunk).toNat % 4 = 0 := by rw [BitVec.toNat_add]; omega
  rw [writeAdvance_of_not_end hmore]
  refine chunkOk_of_firstChunk hv hlt hcap hend4 hstop4 (w32_toNat _).symm (w32_toNat _).symm ?_
  exact congrArg w32 (firstChunk_of_mod_eq_zero hstart).symm

/-- A WRITE's step past CHECK leaves the chunk as it is, or forms the next one. -/
theorem execWrite_chunkOk (hv : s.cfg.Valid) (h : s.reg.phase ≠ .check → ChunkOk s) (ht : execWrite s = .next t)
    (hbusy : t.reg.busy = true) : ChunkOk t := by
  unfold execWrite at ht
  split at ht <;> cases ht
  next hp =>
    cases hcheck : (checkReady s <|> checkTransfer s) with
    | some f => simp [hcheck, failIf] at hbusy
    | none =>
      obtain ⟨-, hpass⟩ := (Option.orElse_eq_none _ _).1 hcheck
      refine writeCheck_chunkOk hv hpass fun hempty => ?_
      rw [hcheck, failIf, writeCheck_of_empty hempty] at hbusy
      cases hbusy
  next hp => exact chunkOk_of_engine (h (by simp [hp])) (welIssue_engine ..)
  next hp => exact chunkOk_of_engine (h (by simp [hp])) (takeVerdict_engine fun _ => rfl)
  next hp => exact chunkOk_of_engine (h (by simp [hp])) (writeFrame_engine s)
  next hp => exact chunkOk_of_engine (h (by simp [hp])) (waitTx_engine fun _ => rfl)
  next hp => exact chunkOk_of_engine (h (by simp [hp])) (takeVerdict_engine fun _ => rfl)
  next hp =>
    refine writeAdvance_chunkOk hv (h (by simp [hp])) fun hend => ?_
    rw [writeAdvance_of_end hend] at hbusy
    cases hbusy

end Chunk

/-! ## The page programs sent (R365) -/

section Pages

variable {s t : State} {c : Cfg} {log : List BusItem} {f : Frame} {r : XResult × State}
  {it : BusItem} {k : State → State} {info : Word}

/-- No page program of the log straddles a page. -/
def PagesKept (c : Cfg) (log : List BusItem) : Prop :=
  ∀ it ∈ log, it.frame.instr = c.opcEqpp → withinPage c.pageSize it.frame.addr.toNat it.frame.nbytes.toNat

theorem pagesKept_cons (hlog : PagesKept c log)
    (h : it.frame.instr = c.opcEqpp → withinPage c.pageSize it.frame.addr.toNat it.frame.nbytes.toNat) :
    PagesKept c (it :: log) := List.forall_mem_cons.2 ⟨h, hlog⟩

/-- Filling in the open frame's data leaves where it goes and how long it is. -/
theorem pagesKept_fillRx (bytes : List Byte) (h : PagesKept c log) :
    PagesKept c (fillRx bytes log) := by
  cases log with
  | nil => exact h
  | cons it rest => exact pagesKept_cons (fun x hx => h x (List.mem_cons_of_mem _ hx)) (h it List.mem_cons_self)

theorem pagesKept_fillTx (bytes : List Byte) (h : PagesKept c log) :
    PagesKept c (fillTx bytes log) := by
  cases log with
  | nil => exact h
  | cons it rest => exact pagesKept_cons (fun x hx => h x (List.mem_cons_of_mem _ hx)) (h it List.mem_cons_self)

/-- No other instruction has the opcode of the page program (R158). -/
theorem ne_opcEqpp (hv : c.Valid) {o : Byte} {l : List Byte} (ho : o ∈ l)
    (hl : l ⊆ [c.opcWren, c.opcRdsr, c.opcRdvcr, c.opcWrvcr, c.opcQiofr, c.opcSse, c.opcSe, c.opcBe]) :
    o ≠ c.opcEqpp := by
  have hnodup : ([c.opcWren, c.opcRdsr, c.opcRdvcr, c.opcWrvcr, c.opcQiofr] ++
      c.opcEqpp :: [c.opcSse, c.opcSe, c.opcBe]).Nodup := hv.opcodes_distinct
  rintro rfl
  exact (List.nodup_cons.1 (List.nodup_middle.1 hnodup)).1 (hl ho)

theorem orTransport_busLog (hk : ∀ u, (k u).out.busLog = u.out.busLog) :
    (orTransport info r k).out.busLog = r.2.out.busLog := by
  obtain ⟨x, u⟩ := r
  cases x
  exacts [hk u, rfl]

/-- Where a step's frame joins the log the newest frame is that one. -/
theorem frame_of_issued (hi : Issued f s r) (h : (orTransport info r k).out.busLog = it :: s.out.busLog)
    (hk : ∀ u, (k u).out.busLog = u.out.busLog) : it.frame = f := by
  obtain ⟨rx, hlog⟩ := hi.log
  rw [orTransport_busLog hk, hlog] at h
  cases h
  rfl

theorem startDma_busLog {d : Dma} {part : Nat → State → State} (hp : ∀ k t, BusOnly t (part k t)) (s : State) :
    (startDma d part s).2.out.busLog = s.out.busLog := by
  obtain ⟨s0, h0, h⟩ | ⟨s0, h0, h⟩ := startDma_cases (d := d) hp s <;> simp only [h, h0.log]

/-- The frame a step sends from where the latch was seen: the chunk's page program, or none (R360, R370, R375, R305). -/
theorem frame_of_sendsLatched {i : Instr} (hop : decodeOp s.st.op = .ok i) (hl : sendsLatched s)
    (ht : exec i s = .next t) (hlog : t.out.busLog = it :: s.out.busLog) :
    it.frame.instr ∈ [s.cfg.opcWrvcr, s.cfg.opcSse, s.cfg.opcSe, s.cfg.opcBe] ∨
      (s.st.op = 4 ∧ it.frame = quadOutFrame s.cfg.opcEqpp (off24 s.st.cur.toNat) (w32 s.st.chunk.toNat) []) := by
  obtain ⟨hp, h4 | h5 | h8 | ⟨h1, hsub⟩⟩ := hl
  · rw [h4] at hop
    cases hop
    simp only [exec, execWrite, hp] at ht
    cases ht
    refine .inr ⟨h4, frame_of_issued (issueEqpp_issued ..) hlog fun u => ?_⟩
    rw [orTransport_busLog (k := toPhase .waitTx) (fun _ => rfl), startDma_busLog fun k t => partEqpp_busOnly t _ _ _ k]
  · rw [h5] at hop
    cases hop
    simp only [exec, execErase, hp, eraseFrameStep] at ht
    cases ht
    split at hlog
    · rw [frame_of_issued (issueSse_issued ..) hlog fun _ => rfl]; simp
    · rw [frame_of_issued (issueSe_issued ..) hlog fun _ => rfl]; simp
  · rw [h8] at hop
    cases hop
    simp only [exec, execBulkErase, hp] at ht
    cases ht
    rw [frame_of_issued (issueBe_issued s) hlog fun _ => rfl]; simp
  · rw [h1] at hop
    cases hop
    rw [exec_init_cfgWr hp hsub] at ht
    cases ht
    rw [frame_of_issued (issueWrvcr_issued _ s) hlog fun _ => rfl]; simp

/-- The chunk's page program stays in its page. -/
theorem withinPage_of_chunkOk (hv : s.cfg.Valid) (h : ChunkOk s) :
    withinPage s.cfg.pageSize (off24 s.st.cur.toNat).toNat (w32 s.st.chunk.toNat).toNat := by
  have hwithin := h.within
  have hcap := h.stop_le
  have hpos := h.pos
  have h24 := hv.capacity_le
  rw [w32_toNat, BitVec.toNat_ofNat, Nat.mod_eq_of_lt (by omega)]
  exact h.page

end Pages

/-! ## Every agent keeps the split invariant -/

section Split

variable {s t : State}

/-- A WRITE runs past its CHECK. -/
def Writing (s : State) : Prop := s.reg.busy = true ∧ s.reg.phase ≠ .check ∧ s.st.op = 4

theorem splitInv_of_kept (h : SplitInv s) (hc : ControlInv t) (he : engine t = engine s)
    (hw : Writing t → Writing s) (hlog : PagesKept s.cfg t.out.busLog) : SplitInv t where
  control := hc
  chunk hb hp hop := by
    obtain ⟨hb', hp', hop'⟩ := hw ⟨hb, hp, hop⟩
    exact chunkOk_of_engine (h.chunk hb' hp' hop') he
  sent := by
    have hcfg : t.cfg = s.cfg := congrArg Prod.fst he
    rw [hcfg]
    exact hlog

/-- Where no WRITE runs past its CHECK only the frames already sent count. -/
theorem splitInv_of_not_writing (hc : ControlInv t) (hw : ¬ Writing t) (hlog : PagesKept t.cfg t.out.busLog) :
    SplitInv t where
  control := hc
  chunk hb hp hop := absurd ⟨hb, hp, hop⟩ hw
  sent := hlog

theorem csmStep_splitInv (hv : s.cfg.Valid) (h : SplitInv s) (ht : csmStep s = .next t) : SplitInv t := by
  obtain rfl | hs := csmStep_stepped h.control ht
  · exact h
  obtain rfl | ⟨-, rfl⟩ | ⟨i, hop, hexec, -, hbusy, -, -⟩ := csmStep_cases h.control ht
  · exact h
  · exact splitInv_of_not_writing hs.control (by simp [Writing]) h.sent
  · have hcmd : i.isCommand = true := isCommand_of_decodeCmd ((decodeCmd_setWidth s.st.op).trans hop)
    refine ⟨hs.control, fun hb _ h4 => ?_, ?_⟩
    · rw [exec_op hcmd hexec] at h4
      rw [h4] at hop
      cases hop
      exact execWrite_chunkOk hv (fun hp => h.chunk hbusy hp h4) hexec hb
    · rw [hs.cfg]
      obtain hlog | ⟨it, hlog, -, hf | hl⟩ := hs.sent
      · rw [hlog]; exact h.sent
      · rw [hlog]
        exact pagesKept_cons h.sent fun he => absurd he (ne_opcEqpp hv hf (by simp))
      · have hframe := frame_of_sendsLatched hop hl hexec hlog
        rw [hlog]
        refine pagesKept_cons h.sent fun he => ?_
        obtain hother | ⟨h4, hf⟩ := hframe
        · exact absurd he (ne_opcEqpp hv hother (by simp))
        · rw [hf]
          exact withinPage_of_chunkOk hv (h.chunk hbusy (by simp [hl.1]) h4)

/-- A transfer's completion changes the data of the newest frame alone (R208). -/
theorem dmaStep_splitInv (h : SplitInv s) : SplitInv (dmaStep s) := by
  have hc := dmaStep_controlInv h.control
  rcases hd : s.st.dma with _ | ⟨dst, n, a, k⟩ | ⟨p, n, a⟩
  · rw [dmaStep_idle hd]; exact h
  · cases hadm : dstAdmitted s.cfg n dst with
    | false => rw [dmaStep_rx_refused hd hadm]; exact h
    | true =>
      obtain ⟨bs, d, -, -, hstep⟩ := dmaStep_rx_shape hd hadm
      rw [hstep] at hc ⊢
      cases dst <;> exact splitInv_of_kept h hc rfl id (pagesKept_fillRx bs h.sent)
  · cases hadm : admits s.cfg p.toNat n with
    | false => rw [dmaStep_tx_refused hd hadm]; exact h
    | true =>
      have hresp := (txBytes_busOnly s p.toNat n).trans (respEqpp_busOnly _ a (txBytes p.toNat n s).1)
      rw [dmaStep_tx hd hadm] at hc ⊢
      refine splitInv_of_kept h hc ?_ ?_ (pagesKept_fillTx _ h.sent)
      · exact engine_of_busOnly (t := respEqpp a _ (txBytes p.toNat n s).2) hresp
      · simp only [Writing, hresp.reg, hresp.st, imp_self]

/-- A sample sends a status read (R220). -/
theorem sampleStep_splitInv (hv : s.cfg.Valid) (h : SplitInv s) : SplitInv (sampleStep s) := by
  cases ha : s.st.pollActive with
  | false => rw [sampleStep_of_not_active ha]; exact h
  | true =>
    obtain ⟨v, -, -, -, -, -, hlog, -⟩ := sampleStep_logs ha
    have hkept : engine (sampleStep s) = engine s ∧ (Writing (sampleStep s) → Writing s) := by
      obtain ⟨v, d, t, -, rfl, hstep⟩ := sampleStep_of_active ha
      rw [hstep]
      split <;> exact ⟨rfl, id⟩
    refine splitInv_of_kept h (sampleStep_controlInv h.control) hkept.1 hkept.2 ?_
    rw [hlog]
    exact pagesKept_cons h.sent fun he => absurd he (ne_opcEqpp hv (List.mem_singleton_self s.cfg.opcRdsr) (by simp))

theorem tickStep_splitInv (h : SplitInv s) : SplitInv (tickStep s) := by
  have hc := tickStep_controlInv h.control
  cases hen : tickEnabled s with
  | false => rw [tickStep_of_disabled hen]; exact h
  | true => rw [tickStep_of_enabled hen] at hc ⊢; exact splitInv_of_kept h hc rfl id h.sent

theorem blockKept_splitInv (hk : BlockKept s t) (h : SplitInv s) : SplitInv t := by
  obtain ⟨hcfg, hreg, hst, hlog, -⟩ := hk
  refine splitInv_of_kept h (controlInv_of_eq h.control hcfg hreg hst) ?_ ?_ (hlog ▸ h.sent)
  · simp only [engine, hcfg, hst]
  · simp only [Writing, hreg, hst, imp_self]

theorem writeCmd_splitInv (h : SplitInv s) (w : Word) : SplitInv (writeCmd w s) := by
  have hc := writeCmd_controlInv h.control w
  by_cases hbusy : s.reg.busy = true ∨ s.reg.phase = .halted
  · rw [writeCmd, if_pos hbusy] at hc ⊢
    exact splitInv_of_kept h hc rfl id h.sent
  · rw [writeCmd, if_neg hbusy] at hc ⊢
    exact splitInv_of_not_writing hc (fun hw => hw.2.1 rfl) h.sent

theorem release_splitInv (h : SplitInv s) (v : Word) : SplitInv (release v s) := by
  have hc := release_controlInv h.control v
  by_cases hfree : v.getLsbD 2 = true ∧ s.reg.phase = .halted
  · have hidle : (release v s).reg.phase = .idle := if_pos hfree
    exact splitInv_of_not_writing hc (fun hw => (hc.busy_iff.1 hw.1).1 hidle) h.sent
  · rw [release_of_not_released hfree] at hc ⊢
    exact splitInv_of_kept h hc rfl id h.sent

/-- A host write can only start a command, in CHECK, or release HALTED to IDLE (R457, R465). -/
theorem writeWindow_splitInv (h : SplitInv s) (off : Nat) (v : Word) : SplitInv (writeWindow off v s) := by
  unfold writeWindow
  split
  next r _ =>
    cases r
    case cmd => exact writeCmd_splitInv h v
    case status => exact release_splitInv h v
    all_goals exact splitInv_of_kept h { h.control with } rfl id h.sent
  next => exact h

theorem blockReset_splitInv (h : SplitInv s) : SplitInv (blockReset s) := by
  have hlog : (blockReset s).out.busLog = s.out.busLog :=
    (congrArg Ports.busLog (takeBytes_out ..)).trans (cutTransfer_busLog s)
  refine splitInv_of_not_writing (blockReset_controlInv s) (fun hw => nomatch hw.1) ?_
  rw [(blockReset_keeps s).cfg, hlog]
  exact h.sent

theorem act_splitInv {a : Agent} (hv : s.cfg.Valid) (h : SplitInv s) (hact : act a s = .next t) : SplitInv t := by
  cases a with
  | csm => exact of_unless_inReset h (csmStep_splitInv hv h) hact
  | dma => exact of_unless_inReset h (fun e => by cases e; exact dmaStep_splitInv h) hact
  | sample => exact of_unless_inReset h (fun e => by cases e; exact sampleStep_splitInv hv h) hact
  | host =>
    refine of_unless_inReset h (fun e => ?_) hact
    obtain ⟨p, off, v, rfl⟩ | hkept := hostStep_cases e
    · have htaken : BlockKept s { s with env.prog := p } := ⟨rfl, rfl, rfl, rfl, rfl⟩
      exact writeWindow_splitInv (blockKept_splitInv htaken h) off v
    · exact blockKept_splitInv hkept h
  | tick => cases hact; exact tickStep_splitInv h
  | device => cases hact; exact blockKept_splitInv (completeOp_blockKept s) h
  | bus => exact blockKept_splitInv (busStep_blockKept hact) h
  | resetAssert => exact of_unless_inReset h (fun e => by cases e; exact blockReset_splitInv h) hact
  | resetRelease => cases hact; exact blockKept_splitInv (s := s) ⟨rfl, rfl, rfl, rfl, rfl⟩ h

end Split

/-- Settles O51: a WRITE's CHECK and ADVANCE form each chunk by the law, no other step touches it while the WRITE runs,
and the one step that sends a page program sends the chunk's. -/
theorem stepKeepsSplit : Obligations.StepKeepsSplit := by
  intro s s' hv h hstep
  obtain ⟨a, ag, d, hact⟩ := step_inv hstep
  have htaken : SplitInv { s with env.agenda := ag, env.draws := d } :=
    blockKept_splitInv (s := s) ⟨rfl, rfl, rfl, rfl, rfl⟩ h
  exact act_splitInv (s := { s with env.agenda := ag, env.draws := d }) hv htaken hact

end Sys2Proof.Proofs
end

section
/-! Block I/O (43_block_io.md), step by step: the CHECK, FRAME, COMPARE and ADVANCE steps of READ, ERASE_VERIFY, WRITE,
ERASE and BULK_ERASE. -/

namespace Sys2Proof.Proofs

open Sys2Proof Sys2Proof.Machine Sys2Proof.Spec

/-! ## CHECK, its checks passed (R352, R358, R369, R378) -/

section Check

variable {s : State} {e : Option CheckFailure} {k : State → State}

/-- In READY with no operand failure a command's own step is taken. -/
theorem failIf_checkReady (hready : s.reg.initState = .ready) (h : e = none) :
    failIf (checkReady s <|> e) k s = k s := by
  have hpass : checkReady s = none := if_neg (not_not.2 hready)
  rw [hpass, h]
  rfl

theorem exec_read_check (hp : s.reg.phase = .check) (hready : s.reg.initState = .ready)
    (h : operandFailure .read s = none) : exec .read s = .next (readCheck s) := by
  simp only [exec, execRead, hp, failIf_checkReady hready (show checkTransfer s = none from h)]

theorem exec_write_check (hp : s.reg.phase = .check) (hready : s.reg.initState = .ready)
    (h : operandFailure .write s = none) : exec .write s = .next (writeCheck s) := by
  simp only [exec, execWrite, hp, failIf_checkReady hready (show checkTransfer s = none from h)]

theorem exec_erase_check (hp : s.reg.phase = .check) (hready : s.reg.initState = .ready)
    (h : operandFailure .erase s = none) : exec .erase s = .next (eraseCheck s) := by
  simp only [exec, execErase, hp, failIf_checkReady hready (show checkErase s = none from h)]

theorem exec_eraseVerify_check (hp : s.reg.phase = .check) (hready : s.reg.initState = .ready)
    (h : operandFailure .eraseVerify s = none) : exec .eraseVerify s = .next (verifyCheck s) := by
  simp only [exec, execEraseVerify, hp, failIf_checkReady hready (show checkBlock s = none from h)]

/-- The first chunk in the request's own length (R358). -/
theorem firstChunk_add (page cur n : Nat) : firstChunk page cur (cur + n) = min (page - cur % page) n := by
  rw [firstChunk, Nat.add_sub_cancel_left]

end Check

/-- Settles O26: the step is `readCheck`, which tests the length. -/
theorem readCheckLatchesOperands : Obligations.ReadCheckLatchesOperands := by
  intro s hp hready hpass
  rw [exec_read_check hp hready hpass]
  exact ⟨_, rfl, fun hlen => congrArg _ (if_pos hlen), fun hlen => congrArg _ (if_neg hlen)⟩

/-- Settles O32: the step is `writeCheck`; the request is empty where cursor and end are one. -/
theorem writeCheckFormsTheFirstChunk : Obligations.WriteCheckFormsTheFirstChunk := by
  intro s hp hready hpass
  rw [exec_write_check hp hready hpass]
  refine ⟨_, rfl, fun hlen => ?_, fun hlen => ?_⟩
  · rw [writeCheck_of_empty hlen]; rfl
  · rw [writeCheck_of_nonempty hlen, firstChunk_add]; rfl

/-- Settles O35: the step is `eraseCheck`, which tests COUNT. -/
theorem eraseCheckSetsTheBlocks : Obligations.EraseCheckSetsTheBlocks := by
  intro s hp hready hpass
  rw [exec_erase_check hp hready hpass]
  exact ⟨_, rfl, fun hcount => congrArg _ (if_pos hcount), fun hcount => congrArg _ (if_neg hcount)⟩

/-- Settles O29: the step is `verifyCheck`. -/
theorem verifyCheckSetsTheRange : Obligations.VerifyCheckSetsTheRange := fun _ hp hready hpass =>
  exec_eraseVerify_check hp hready hpass

/-! ## FRAME of READ and ERASE_VERIFY (R353, R379) -/

section ReadFrame

variable {s s0 s1 t : State} {dst : DmaDst} {n : Nat} {a : Off24}

theorem exec_read_frame (hp : s.reg.phase = .frame) :
    exec .read s = .next (startRead (.host s.st.ptr) s.st.len.toNat s) := by simp only [exec, execRead, hp]

theorem exec_eraseVerify_frame (hp : s.reg.phase = .frame) :
    exec .eraseVerify s = .next (startRead .scratch s.cfg.sectorSize s) := by simp only [exec, execEraseVerify, hp]

/-- A read begins under its own chip-select time where the parameter says so (R215). -/
def readCsht (s : State) : State := { s with st.csht := if s.cfg.cshtToggle then s.cfg.cshtRead else s.st.csht }

/-- The QIOFR frame of a read of `n` bytes at the cursor (R353). -/
def readFrame (n : Nat) (s : State) : Frame :=
  quadInFrame s.cfg.opcQiofr (off24 s.st.cur.toNat) (readDummy s.cfg) (w32 n)

theorem startRead_eq (dst : DmaDst) (n : Nat) (s : State) :
    startRead dst n s = orTransport (cursorInfo s) (issueQiofr (off24 s.st.cur.toNat) n (readCsht s)) fun u =>
      orTransport (cursorInfo s) (startDma (.rx dst n (off24 s.st.cur.toNat) (readDummy s.cfg)) noEffect u)
        (toPhase .waitRx) := by
  have hcsht : (if s.cfg.cshtToggle then { s with st.csht := s.cfg.cshtRead } else s) = readCsht s := by
    unfold readCsht
    cases s.cfg.cshtToggle <;> rfl
  rw [startRead, hcsht]

/-- A read cut anywhere consumes draws only. -/
theorem failedFrame_noEffect (s : State) : ∃ d, failedFrame noEffect s = { s with env.draws := d } := by
  obtain ⟨d, h | ⟨k, h⟩⟩ := failedFrame_cases noEffect s <;> exact ⟨d, h⟩

theorem issueQiofr_ok (h : takeResult (readCsht s) = (.ok, s0)) :
    issueQiofr (off24 s.st.cur.toNat) n (readCsht s) = (.ok, sent (readFrame n s) .ok [] s0) := issue_ok h

theorem startRead_xfail (h : takeResult (readCsht s) = (.xfail, s0)) :
    ∃ d, startRead dst n s =
      failed .transport (cursorInfo s) { sent (readFrame n s) .xfail [] s0 with env.draws := d } := by
  obtain ⟨d, hd⟩ := failedFrame_noEffect (sent (readFrame n s) .xfail [] s0)
  refine ⟨d, ?_⟩
  rw [← hd, startRead_eq, issueQiofr, issue_xfail h]
  rfl

theorem startRead_ok (h : takeResult (readCsht s) = (.ok, s0))
    (hd : takeResult (sent (readFrame n s) .ok [] s0) = (.ok, s1)) :
    startRead dst n s =
      { s1 with
        st.dma := .rx dst n (off24 s.st.cur.toNat) (readDummy s.cfg)
        reg.phase := .waitRx } := by
  rw [startRead_eq, issueQiofr_ok h, orTransport_ok, startDma_ok hd]
  rfl

theorem startRead_dma_xfail (h : takeResult (readCsht s) = (.ok, s0))
    (hd : takeResult (sent (readFrame n s) .ok [] s0) = (.xfail, s1)) :
    ∃ d, startRead dst n s = failed .transport (cursorInfo s) { s1 with env.draws := d } := by
  obtain ⟨d, hcut⟩ := failedFrame_noEffect s1
  refine ⟨d, ?_⟩
  rw [startRead_eq, issueQiofr_ok h, orTransport_ok, startDma_xfail hd, hcut]
  rfl

end ReadFrame

/-- Settles O27: the step is `startRead`, by the results of the frame's issue and of the DMA start. -/
theorem readFrameStartsTheTransfer : Obligations.ReadFrameStartsTheTransfer := by
  intro i s s0 s1 dst n hp hi
  have hstep : exec i s = .next (startRead dst n s) ∧ failInfo i s = cursorInfo s := by
    obtain ⟨rfl, rfl, rfl⟩ | ⟨rfl, rfl, rfl⟩ := hi
    · exact ⟨exec_read_frame hp, rfl⟩
    · exact ⟨exec_eraseVerify_frame hp, rfl⟩
  obtain ⟨hexec, hinfo⟩ := hstep
  rw [hexec, hinfo]
  refine ⟨_, _, rfl, rfl, fun hfail => ?_, fun hok hstart => congrArg _ (startRead_ok hok hstart), fun hok hfail => ?_⟩
  · obtain ⟨d, hd⟩ := startRead_xfail (dst := dst) (n := n) hfail
    exact ⟨d, congrArg _ hd⟩
  · obtain ⟨d, hd⟩ := startRead_dma_xfail (dst := dst) hok hfail
    exact ⟨d, congrArg _ hd⟩

/-! ## COMPARE and ADVANCE of ERASE_VERIFY, ADVANCE of ERASE (R380, R381, R372) -/

section Compare

variable {s : State} {erased : Byte} {bytes : List Byte} {i : Nat} {b : Byte}

theorem exec_eraseVerify_compare (hp : s.reg.phase = .compare) : exec .eraseVerify s = .next (verifyCompare s) := by
  simp only [exec, execEraseVerify, hp]

/-- The comparator finds the least byte that is not erased. -/
theorem firstMismatch_of_least (hb : bytes[i]? = some b) (hne : b ≠ erased)
    (hleast : ∀ j c, j < i → bytes[j]? = some c → c = erased) : firstMismatch erased bytes = some i := by
  obtain ⟨hi, rfl⟩ := List.getElem?_eq_some_iff.1 hb
  refine List.findIdx?_eq_some_iff_getElem.2 ⟨hi, by simpa using hne, fun j hj => ?_⟩
  simpa using hleast j _ hj (List.getElem?_eq_getElem (hj.trans hi))

theorem firstMismatch_of_erased (h : ∀ b ∈ bytes, b = erased) : firstMismatch erased bytes = none := by
  refine List.findIdx?_eq_none_iff.2 fun b hb => ?_
  simpa using h b hb

theorem exec_erase_advance (hp : s.reg.phase = .advance) : exec .erase s = .next (eraseAdvance s) := by
  simp only [exec, execErase, hp]

theorem exec_eraseVerify_advance (hp : s.reg.phase = .advance) : exec .eraseVerify s = .next (verifyAdvance s) := by
  simp only [exec, execEraseVerify, hp]

theorem exec_write_advance (hp : s.reg.phase = .advance) : exec .write s = .next (writeAdvance s) := by
  simp only [exec, execWrite, hp]

end Compare

/-- Settles O30: the comparator's index is that of the least byte not erased, if there is one. -/
theorem verifyComparesEveryByte : Obligations.VerifyComparesEveryByte := by
  intro s hp
  rw [exec_eraseVerify_compare hp, verifyCompare]
  refine ⟨fun i b hb hne hleast => ?_, fun herased => ?_⟩
  · rw [firstMismatch_of_least hb hne hleast]; rfl
  · rw [firstMismatch_of_erased herased]; rfl

/-- Settles O31: the two steps test whether the next block or chunk is the end. -/
theorem eraseAndVerifyAdvance : Obligations.EraseAndVerifyAdvance := by
  intro s hp
  rw [exec_erase_advance hp, exec_eraseVerify_advance hp]
  exact ⟨fun hend => congrArg _ (if_pos hend), fun hmore => congrArg _ (if_neg hmore),
    fun hend => congrArg _ (if_pos hend), fun hmore => congrArg _ (if_neg hmore)⟩

/-- Settles O34: the step is `writeAdvance`, by whether the chunk was the last. -/
theorem writeAdvancesByTheChunk : Obligations.WriteAdvancesByTheChunk := by
  intro s hp
  rw [exec_write_advance hp]
  refine ⟨_, rfl, fun hend => ?_, fun hmore => ?_⟩
  · rw [writeAdvance_of_end hend]; rfl
  · rw [writeAdvance_of_not_end hmore]; rfl

/-! ## FRAME of WRITE (R360) -/

section WriteFrame

variable {s s0 s1 : State}

theorem exec_write_frame (hp : s.reg.phase = .frame) : exec .write s = .next (writeFrame s) := by
  simp only [exec, execWrite, hp]

/-- An EQPP cut after `k` bytes is ignored, or programs those bytes. -/
theorem partEqpp_cutProgram (a : Off24) (p : Word) (n k : Nat) (s : State) :
    ∃ d dv, partEqpp a p n k s = { s with env.draws := d, dev := dv } ∧ cutProgram s a p n k dv := by
  obtain ⟨bytes, d, dv, hpart, hlen, hmoved, hdv⟩ := partEqpp_shape a p n k s
  refine ⟨d, dv, hpart, ?_⟩
  by_cases h : s.dev.op = .none ∧ s.dev.wel = true
  · exact .inr ⟨h.1, h.2, bytes, ⟨hlen, hmoved⟩, hdv.trans (if_pos h)⟩
  · exact .inl (hdv.trans (if_neg h))

/-- A failed EQPP: a first part of the host's bytes, of drawn length, or nothing (R204; log 18). -/
theorem failedFrame_partEqpp (a : Off24) (p : Word) (n : Nat) (s : State) :
    ∃ d dv k, failedFrame (partEqpp a p n) s = { s with env.draws := d, dev := dv } ∧ cutProgram s a p n k dv := by
  obtain ⟨d, h | ⟨k, h⟩⟩ := failedFrame_cases (partEqpp a p n) s
  · exact ⟨d, s.dev, 0, h, .inl rfl⟩
  · obtain ⟨d', dv, hpart, hcut⟩ := partEqpp_cutProgram a p n k { s with env.draws := d }
    exact ⟨d', dv, k, h.trans hpart, hcut⟩

theorem issueEqpp_ok {a : Off24} {p n : Word} (h : takeResult s = (.ok, s0)) :
    issueEqpp a p n.toNat s = (.ok, sent (quadOutFrame s.cfg.opcEqpp a n []) .ok [] s0) := by
  rw [issueEqpp, w32_toNat]
  exact issue_ok h

theorem issueEqpp_xfail {a : Off24} {p n : Word} (h : takeResult s = (.xfail, s0)) :
    ∃ d dv k, issueEqpp a p n.toNat s =
        (.xfail, { sent (quadOutFrame s.cfg.opcEqpp a n []) .xfail [] s0 with env.draws := d, dev := dv }) ∧
      cutProgram s0 a p n.toNat k dv := by
  obtain ⟨d, dv, k, hcut, hdv⟩ :=
    failedFrame_partEqpp a p n.toNat (sent (quadOutFrame s.cfg.opcEqpp a n []) .xfail [] s0)
  refine ⟨d, dv, k, ?_, hdv⟩
  rw [issueEqpp, w32_toNat, issue_xfail h, ← hcut]
  rfl

end WriteFrame

/-- Settles O33: the step is `writeFrame`, by the results of the frame's issue and of the DMA start; either failure
leaves what a cut EQPP leaves. -/
theorem writeFrameStartsTheTransfer : Obligations.WriteFrameStartsTheTransfer := by
  intro s s0 s1 hp
  rw [exec_write_frame hp, writeFrame]
  refine ⟨_, _, rfl, rfl, fun hok hstart => ?_, fun hfail => ?_, fun hok hfail => ?_⟩
  · dsimp only
    rw [issueEqpp_ok hok, orTransport_ok, startDma_ok hstart]
    rfl
  · obtain ⟨d, dv, k, hissue, hcut⟩ :=
      issueEqpp_xfail (a := off24 s.st.cur.toNat) (p := s.st.ptr) (n := s.st.chunk) hfail
    obtain ⟨d0, rfl⟩ := takeResult_shape hfail
    refine ⟨d, dv, k, ?_, hcut⟩
    dsimp only
    rw [hissue]
    rfl
  · obtain ⟨d, dv, k, hfailed, hcut⟩ := failedFrame_partEqpp (off24 s.st.cur.toNat) s.st.ptr s.st.chunk.toNat s1
    dsimp only
    rw [issueEqpp_ok hok, orTransport_ok, startDma_xfail hfail, hfailed]
    obtain ⟨d0, rfl⟩ := takeResult_shape hok
    obtain ⟨d1, rfl⟩ := takeResult_shape hfail
    exact ⟨d, dv, k, rfl, hcut⟩

/-! ## FRAME of ERASE and BULK_ERASE (R370, R371, R375) -/

section EraseFrame

variable {s s0 : State} {f : Frame} {act k : State → State} {op : DevOp} {info : Word} {n : Cfg → Nat}

/-- An erase instruction is sent: the device starts its erase, and the busy poll begins under the budget `n`. -/
theorem eraseIssue_ok (hdir : f.dir = none) (hact : ∀ t, t.cfg = s.cfg → act t = starts op t)
    (h : takeResult s = (.ok, s0)) :
    orTransport info (issue f act (fun _ => act) s) (fun u => busyWait (n u.cfg) u) =
      { polls s.cfg.srWipMask 0 (n s.cfg) (sent f .ok [] (starts op s0)) with reg.phase := .busyPoll } := by
  have hcfg0 : s0.cfg = s.cfg := by
    obtain ⟨d, rfl⟩ := takeResult_shape h
    rfl
  have hcfg : (starts op s0).cfg = s.cfg := by
    unfold starts
    split <;> exact hcfg0
  rw [issue_ok h, orTransport_ok, hact s0 hcfg0]
  simp only [inlineRx, hdir, busyWait, logFrame_cfg, hcfg]
  rfl

/-- An erase instruction whose issue fails: the device's erase has started or not (R204). -/
theorem eraseIssue_xfail (hact : ∀ t, t.cfg = s.cfg → act t = starts op t) (h : takeResult s = (.xfail, s0)) :
    ∃ u d, u = { sent f .xfail [] s0 with env.draws := d } ∧
      ((.next (orTransport info (issue f act (fun _ => act) s) k) : Result) = .next (failed .transport info u) ∨
        (.next (orTransport info (issue f act (fun _ => act) s) k) : Result) =
          .next (failed .transport info (starts op u))) := by
  obtain ⟨d0, rfl⟩ := takeResult_shape h
  have hraise {x y : State} (e : x = y) :
      (.next (raise .transport info x) : Result) = .next (failed .transport info y) := by rw [e]; rfl
  rw [issue_xfail h, orTransport_xfail]
  obtain ⟨d, hnone | ⟨k, hacted⟩⟩ := failedFrame_cases (fun _ => act) (sent f .xfail [] { s with env.draws := d0 })
  · exact ⟨_, d, rfl, .inl (hraise hnone)⟩
  · exact ⟨_, d, rfl, .inr (hraise (hacted.trans (hact _ rfl)))⟩

theorem exec_erase_frame (hp : s.reg.phase = .frame) : exec .erase s = .next (eraseFrameStep s) := by
  simp only [exec, execErase, hp]

theorem exec_bulkErase_frame (hp : s.reg.phase = .frame) : exec .bulkErase s = .next (bulkFrame s) := by
  simp only [exec, execBulkErase, hp]

theorem eraseFrameStep_sse (h : s.cfg.blockSize = 4096) :
    eraseFrameStep s = orTransport s.st.bi (issueSse (off24 (s.st.bi.toNat * s.cfg.blockSize)) s) fun u =>
      busyWait u.cfg.tSse u := if_pos h

theorem eraseFrameStep_se (h : s.cfg.blockSize ≠ 4096) :
    eraseFrameStep s = orTransport s.st.bi (issueSe (off24 (s.st.bi.toNat * s.cfg.blockSize)) s) fun u =>
      busyWait u.cfg.tSe u := if_neg h

/-- BE erases the whole array of the configuration (R260). -/
theorem respBe_eq_starts {c : Cfg} {t : State} (h : t.cfg = c) : respBe t = starts (.erase .be 0 c.capacity) t := by
  subst h
  rfl

end EraseFrame

/-- Settles O36: in each of the three cases one erase instruction's issue, by its result. -/
theorem eraseFrameStartsTheErase : Obligations.EraseFrameStartsTheErase := by
  intro s s0 hp
  rw [exec_erase_frame hp, exec_bulkErase_frame hp]
  have hbe (t : State) (ht : t.cfg = s.cfg) := respBe_eq_starts ht
  refine ⟨_, _, _, _, rfl, rfl, rfl, rfl, fun hok => ⟨fun hsse => ?_, fun hse => ?_, ?_⟩,
    fun hfail => ⟨fun hsse => ?_, fun hse => ?_, ?_⟩⟩
  · rw [eraseFrameStep_sse hsse]
    exact congrArg _ (eraseIssue_ok rfl (fun _ _ => rfl) hok)
  · rw [eraseFrameStep_se hse]
    exact congrArg _ (eraseIssue_ok rfl (fun _ _ => rfl) hok)
  · exact congrArg _ (eraseIssue_ok rfl hbe hok)
  · rw [eraseFrameStep_sse hsse]
    exact eraseIssue_xfail (fun _ _ => rfl) hfail
  · rw [eraseFrameStep_se hse]
    exact eraseIssue_xfail (fun _ _ => rfl) hfail
  · exact eraseIssue_xfail hbe hfail

end Sys2Proof.Proofs
end

section
/-! Host memory (20_memory.md): the host's own stores and loads (R120). -/

namespace Sys2Proof.Proofs

open Sys2Proof Sys2Proof.Machine Sys2Proof.Spec

section HostMemory

variable {s : State} {a : Nat}

/-- The buffer of a running READ: by the operand registers in CHECK, by the latched values after (log 19). -/
theorem inReadBuffer_iff :
    inReadBuffer s a = true ↔ s.reg.busy = true ∧ s.st.op = 3 ∧
      (s.reg.phase = .check → s.reg.ptr.toNat ≤ a ∧ a < s.reg.ptr.toNat + length s) ∧
      (s.reg.phase ≠ .check → s.st.ptr.toNat ≤ a ∧ a < s.st.ptr.toNat + s.st.len.toNat) := by
  by_cases hp : s.reg.phase = .check <;> simp [inReadBuffer, hp, and_assoc, byteLength, Spec.length]

/-- A load changes the value read and the draws only; outside the buffer it is the byte there. -/
theorem hostLoad_shape (a : Word) (s : State) :
    ∃ v d, hostLoad a s = { s with env.draws := d, out.hostRd := BitVec.setWidth 32 v } ∧
      (inReadBuffer s a.toNat = false → v = s.hostByte a.toNat ∧ d = s.env.draws) := by
  cases hbuf : inReadBuffer s a.toNat with
  | false => exact ⟨_, _, if_neg (by simp [hbuf]), fun _ => ⟨rfl, rfl⟩⟩
  | true =>
    obtain ⟨d, hd⟩ := takeByte_shape s
    exact ⟨(takeByte s).1, d, by simp only [hostLoad, hbuf, if_true, hd], nofun⟩

end HostMemory

/-- Settles O60: the store is one write of memory, the load a read, drawn where the buffer of a READ is. -/
theorem hostMemoryAccesses : Obligations.HostMemoryAccesses := by
  intro s rest p a hmem
  refine ⟨fun b hnext => ⟨_, step_of_hostNext hnext, Memory.read_write hmem.mem_wf.1⟩, fun hnext => ?_⟩
  obtain ⟨v, d, hload, hsame⟩ := hostLoad_shape a { s with env.agenda := rest, env.prog := p }
  refine ⟨v, d, (step_of_hostNext hnext).trans (congrArg Host.Outcome.next hload), fun hout => hsame ?_⟩
  exact Bool.eq_false_iff.2 fun hbuf => hout (inReadBuffer_iff (s := s).1 hbuf)

end Sys2Proof.Proofs
end

section
/-! Reset and hazards (70_reset_and_hazards.md): what asserting the reset input leaves of the block, of a transfer in
flight and of the device, and that only the release ends it. -/

namespace Sys2Proof.Proofs

open Sys2Proof Sys2Proof.Machine Sys2Proof.Spec

/-! ## The cut transfer (R501, R204) -/

section CutTransfer

variable {s t : State} {p : Word} {n m : Nat} {a : Off24} {k : BitVec 5}

/-- A program that has only started has changed neither the array nor the VCR. -/
theorem sameArray_of_cutProgram (h : cutProgram s a p n m t.dev) : sameArray s t := by
  unfold sameArray
  rcases h with h | ⟨-, -, bytes, -, h⟩ <;> rw [h] <;> exact ⟨rfl, rfl⟩

theorem cutTransfer_rx_bytes (hmem : MemoryInv s) (h : s.st.dma = .rx (.host p) n a k) :
    (cutTransfer s).dev = s.dev ∧ ∃ bs m, bs.length = n ∧ m ≤ n ∧ (0 < m → admits s.cfg p.toNat m = true) ∧
      (s.dev.op = .none → vcrDummy s.cfg s.dev.vcr = k.toNat → bs = flashBytes s a.toNat n) ∧
      ∀ o, (cutTransfer s).hostByte o =
        if p.toNat ≤ o ∧ o < p.toNat + m then bs.getD (o - p.toNat) 0 else s.hostByte o := by
  obtain ⟨bs, m, d, out, hcut, hlen, hm, hadm, hbs⟩ := cutTransfer_rx h
  rw [hcut]
  refine ⟨rfl, bs, m, hlen, hm, hadm, hbs, fun o => ?_⟩
  have hread := Memory.read_writeList (a := p.toNat) hmem.mem_wf (bs.take m) o
  rw [List.length_take_of_le (hm.trans_eq hlen.symm)] at hread
  refine hread.trans (ite_congr rfl (fun ho => ?_) fun _ => rfl)
  rw [List.getD_eq_getElem?_getD, List.getD_eq_getElem?_getD, List.getElem?_take_of_lt (by omega)]

theorem cutTransfer_tx_program (h : s.st.dma = .tx p n a) :
    (cutTransfer s).mem = s.mem ∧
      ∃ m, m ≤ n ∧ (0 < m → admits s.cfg p.toNat m = true) ∧ cutProgram s a p n m (cutTransfer s).dev := by
  obtain ⟨d, hcut⟩ | ⟨m, d, hm, hadm, hcut⟩ := cutTransfer_tx h
  · rw [hcut]
    exact ⟨rfl, 0, Nat.zero_le n, nofun, .inl rfl⟩
  · rw [hcut]
    obtain ⟨d', dv, hpart, hprog⟩ := partEqpp_cutProgram a p n m { s with env.draws := d }
    rw [hpart]
    exact ⟨rfl, m, hm, hadm, hprog⟩

theorem cutTransfer_sameArray (s : State) : sameArray s (cutTransfer s) := by
  rcases hd : s.st.dma with _ | ⟨⟨p⟩ | _, n, a, k⟩ | ⟨p, n, a⟩
  · rw [cutTransfer_idle hd]; exact ⟨rfl, rfl⟩
  · obtain ⟨bs, m, d, o, hcut, -⟩ := cutTransfer_rx hd
    rw [hcut]; exact ⟨rfl, rfl⟩
  · rw [cutTransfer_scratch hd]; exact ⟨rfl, rfl⟩
  · obtain ⟨-, m, -, -, hprog⟩ := cutTransfer_tx_program hd
    exact sameArray_of_cutProgram hprog

end CutTransfer

/-! ## The reset input (R500, R80, R81) -/

section ResetInput

variable {s t : State} {a : Agent} {rest : List Agent}

/-- The reset input next, the block out of reset: the step is the block reset. -/
theorem step_of_resetAssertNext (ha : s.env.agenda = .resetAssert :: rest) (hr : s.env.inReset = false) :
    step s = .next (blockReset (taken rest s)) := by
  rw [step_of_agenda ha]
  simp only [act, hr, Bool.false_eq_true, if_false, taken]

/-! Drawing the scratch buffer's bytes leaves the device and host memory as the cut transfer left them. -/

theorem blockReset_dev (s : State) : (blockReset s).dev = (cutTransfer s).dev := takeBytes_dev ..

theorem blockReset_mem (s : State) : (blockReset s).mem = (cutTransfer s).mem := takeBytes_mem ..

theorem blockReset_hostByte (s : State) (o : Nat) : (blockReset s).hostByte o = (cutTransfer s).hostByte o := by
  rw [State.hostByte, blockReset_mem, State.hostByte]

/-- While reset is asserted the block and the host take no step, and asserting it again does nothing (R500). -/
theorem act_of_inReset (hr : s.env.inReset = true) (ha : a ∈ [Agent.csm, .dma, .sample, .host, .resetAssert]) :
    act a s = .next s := by
  cases a with
  | csm | dma | sample | host | resetAssert => simp only [act, hr, if_true]
  | tick | device | bus | resetRelease => simp at ha

/-- Without a poll the tick changes only the device's age (R222). -/
theorem tickStep_blockKept (hp : s.st.pollActive = false) : BlockKept s (tickStep s) := by
  cases hen : tickEnabled s with
  | false => rw [tickStep_of_disabled hen]; exact ⟨rfl, rfl, rfl, rfl, rfl⟩
  | true => rw [tickStep_of_enabled hen]; exact ⟨rfl, rfl, by rw [if_neg (Bool.eq_false_iff.1 hp)], rfl, rfl⟩

theorem busStep_inReset (h : busStep s = .next t) : t.env.inReset = s.env.inReset := by
  unfold busStep at h
  split at h
  · cases h; rfl
  · split at h
    next hdec => exact (busOnly_of_exec (not_isCommand_of_decodeFrame hdec) h).inReset
    next => cases h; rfl

/-- While reset is asserted every agent leaves the registers and the hidden variables, and only the release ends it. -/
theorem act_keeps_block_of_inReset (hr : s.env.inReset = true) (hp : s.st.pollActive = false)
    (h : act a s = .next t) : t.reg = s.reg ∧ t.st = s.st ∧ (a ≠ .resetRelease → t.env.inReset = true) := by
  cases a with
  | csm | dma | sample | host | resetAssert =>
    rw [act_of_inReset hr (by simp)] at h
    cases h
    exact ⟨rfl, rfl, fun _ => hr⟩
  | tick =>
    cases h
    exact ⟨(tickStep_blockKept hp).reg, (tickStep_blockKept hp).st, fun _ => (tickStep_inReset s).trans hr⟩
  | device =>
    cases h
    exact ⟨(completeOp_blockKept s).reg, (completeOp_blockKept s).st, fun _ => (completeOp_inReset s).trans hr⟩
  | bus => exact ⟨(busStep_blockKept h).reg, (busStep_blockKept h).st, fun _ => (busStep_inReset h).trans hr⟩
  | resetRelease => cases h; exact ⟨rfl, rfl, fun hne => absurd rfl hne⟩

end ResetInput

/-- Settles O48: the reset step is `blockReset`, whose memory and device are the cut transfer's; while it is asserted no
agent's step touches the block. -/
theorem resetRestoresTheBlock : Obligations.ResetRestoresTheBlock := by
  intro s rest hagenda hreset
  refine ⟨blockReset (taken rest s), _, step_of_resetAssertNext hagenda hreset, (blockReset_keeps (taken rest s)).cfg,
    ?array, rfl, length_takeBytes (cutTransfer (taken rest s)) s.cfg.sectorSize, fun hdma => ?idle,
    fun n a k hdma => ?scratch, fun p n a k hmem hdma => ?rx, fun p n a hdma => ?tx, rfl, rfl,
    fun u a more hr hnext => ?asserted⟩
  case array =>
    rw [sameArray, blockReset_dev]
    exact cutTransfer_sameArray (taken rest s)
  case idle =>
    rw [blockReset_mem, blockReset_dev, cutTransfer_idle (s := taken rest s) hdma]
    exact ⟨rfl, rfl⟩
  case scratch =>
    rw [blockReset_mem, blockReset_dev, cutTransfer_scratch (s := taken rest s) hdma]
    exact ⟨rfl, rfl⟩
  case rx =>
    simp only [blockReset_dev, blockReset_hostByte]
    exact cutTransfer_rx_bytes (s := taken rest s) { hmem with } hdma
  case tx =>
    rw [blockReset_mem, blockReset_dev]
    exact cutTransfer_tx_program (s := taken rest s) hdma
  case asserted =>
    have hstep : step u = act a (taken more u) := step_of_agenda hnext
    rw [hstep]
    exact ⟨fun ha => act_of_inReset (s := taken more u) hr (List.mem_append_left [Agent.resetAssert] ha),
      by rintro rfl; rfl, fun hp v hv => act_keeps_block_of_inReset (s := taken more u) hr hp hv⟩

end Sys2Proof.Proofs
end

section
/-! Whole commands (43_block_io.md): READ, ERASE and WRITE from CHECK to their success, turn by turn. -/

namespace Sys2Proof.Proofs

open Sys2Proof Sys2Proof.Machine Sys2Proof.Spec

/-! ## Turns (R467) -/

/-- Runs one after the other. -/
theorem run_add {s t : State} {j : Nat} (k : Nat) (h : Host.Core.run Sys2Proof.core j s = .next t) :
    Host.Core.run Sys2Proof.core (j + k) s = Host.Core.run Sys2Proof.core k t := by
  induction j generalizing s with
  | zero => cases h; rw [Nat.zero_add]
  | succ j ih =>
    rw [Nat.succ_add]
    cases hstep : step s with
    | next u =>
      rw [run_succ hstep] at h ⊢
      exact ih h
    | fault r => simp only [Host.Core.run, show Sys2Proof.core.step s = .fault r from hstep, reduceCtorEq] at h
    | refused r => simp only [Host.Core.run, show Sys2Proof.core.step s = .refused r from hstep, reduceCtorEq] at h

/-- What frames, polls and samples leave alone: the parameters, host memory, the values the DMA may still move, and the
operands a data command has latched. -/
structure Fixed where
  cfg : Cfg
  mem : Memory
  stale : List Host.Cell
  op : BitVec 4
  cur : Word
  stop : Word
  ptr : Word
  len : Word
  chunk : Word
  bi : Word
  bn : Word

/-- What stays fixed, as `s` has it. -/
def fixed (s : State) : Fixed :=
  { cfg := s.cfg, mem := s.mem, stale := s.env.stale, op := s.st.op, cur := s.st.cur, stop := s.st.stop,
    ptr := s.st.ptr, len := s.st.len, chunk := s.st.chunk, bi := s.st.bi, bn := s.st.bn }

/-- Command `i` has come to phase `p`, out of reset: what stays fixed, what is still scheduled and still to be drawn. -/
structure Running (i : Instr) (v : Fixed) (s : State) (turns : List Agent) (results : List XResult) (p : Phase) :
    Prop where
  fixed : fixed s = v
  op : decodeOp s.st.op = .ok i
  inReset : s.env.inReset = false
  agenda : s.env.agenda = turns
  results : s.env.draws.results = results
  phase : s.reg.phase = p

/-- A poll is active. -/
structure PollsFor (mask target : Byte) (s : State) : Prop where
  active : s.st.pollActive = true
  mask : s.st.pollMask = mask
  target : s.st.pollMatch = target

theorem engine_of_fixed {s t : State} (h : fixed t = fixed s) : engine t = engine s :=
  congrArg (fun v => (v.cfg, v.op, v.cur, v.stop, v.chunk)) h

/-- The CSM's turn in CHECK is the step of the command in CMD. -/
theorem step_check {s : State} {rest : List Agent} {i : Instr} (hturn : csmNext s rest) (hp : s.reg.phase = .check)
    (hdec : decodeCmd s.reg.cmd = .ok i) : step s = exec i (taken rest s) :=
  stepRunsTheDecodedCommand s rest i hturn (by simp only [csmEnabled, hp]) (by rwa [if_pos hp])

theorem completeOp_dev_op (s : State) : (completeOp s).dev.op = .none := by
  cases hop : s.dev.op with
  | none => simp only [completeOp, hop]
  | program base latch => rw [completeOp_of_program hop]
  | erase kind base size => rw [completeOp_of_erase hop]

/-- The operation's completion changes the device alone, whatever is scheduled (R261, R262). -/
theorem completeOp_taken (rest : List Agent) (s : State) :
    completeOp (taken rest s) = { taken rest s with dev := (completeOp s).dev } := by
  cases hop : s.dev.op with
  | none => simp only [completeOp, hop, taken]
  | program base latch => rw [completeOp_of_program hop, completeOp_of_program (s := taken rest s) hop]; rfl
  | erase kind base size => rw [completeOp_of_erase hop, completeOp_of_erase (s := taken rest s) hop]; rfl

namespace Running

variable {i : Instr} {v : Fixed} {s : State} {rest : List Agent} {rs : List XResult} {p : Phase}

theorem cfg (h : Running i v s rest rs p) : s.cfg = v.cfg := congrArg Fixed.cfg h.fixed
theorem mem (h : Running i v s rest rs p) : s.mem = v.mem := congrArg Fixed.mem h.fixed
theorem stale (h : Running i v s rest rs p) : s.env.stale = v.stale := congrArg Fixed.stale h.fixed
theorem cur (h : Running i v s rest rs p) : s.st.cur = v.cur := congrArg Fixed.cur h.fixed
theorem stop (h : Running i v s rest rs p) : s.st.stop = v.stop := congrArg Fixed.stop h.fixed
theorem ptr (h : Running i v s rest rs p) : s.st.ptr = v.ptr := congrArg Fixed.ptr h.fixed
theorem len (h : Running i v s rest rs p) : s.st.len = v.len := congrArg Fixed.len h.fixed
theorem chunk (h : Running i v s rest rs p) : s.st.chunk = v.chunk := congrArg Fixed.chunk h.fixed
theorem bi (h : Running i v s rest rs p) : s.st.bi = v.bi := congrArg Fixed.bi h.fixed
theorem bn (h : Running i v s rest rs p) : s.st.bn = v.bn := congrArg Fixed.bn h.fixed

/-- The CSM's turn in a phase past CHECK is the command's step. -/
theorem step_csm (h : Running i v s (.csm :: rest) rs p) (hp : p ≠ .check) (hen : csmEnabled s = true) :
    step s = exec i (taken rest s) := by
  have hpast : s.reg.phase ≠ .check := h.phase ▸ hp
  refine stepRunsTheDecodedCommand s rest i ⟨h.agenda, h.inReset⟩ hen ?_
  rw [if_neg hpast, decodeCmd_setWidth]
  exact h.op

/-- A sample that shows what the poll waits for gives the verdict MATCH (R220, R221). -/
theorem sample (h : Running i v s (.sample :: rest) rs p) (hactive : s.st.pollActive = true)
    (hmatch : ∀ other, srByte s.cfg s.dev other &&& s.st.pollMask = s.st.pollMatch) :
    ∃ t, step s = .next t ∧ Running i v t rest rs p ∧ t.dev = s.dev ∧ t.st.verdict = .matched := by
  obtain ⟨sr, d, rfl, t, rfl, hmatched, -, -⟩ := sampleStepVotes s rest h.agenda h.inReset hactive
  have hstep := hmatched (hmatch _)
  have hresults : d.results = rs := by
    have hkept := sampleStep_results (taken rest s)
    rw [Host.Outcome.next.inj ((step_of_sampleNext h.agenda h.inReset).symm.trans hstep)] at hkept
    exact hkept.trans h.results
  exact ⟨_, hstep, { h with agenda := rfl, results := hresults }, rfl, rfl⟩

/-- The WREN of WEL_ISSUE sets the latch of the idle device, and the latch poll starts (R300). -/
theorem welIssue (h : Running i v s (.csm :: rest) (.ok :: rs) .welIssue)
    (hi : i = .write ∨ i = .erase) (hidle : s.dev.op = .none) :
    ∃ t, step s = .next t ∧ Running i v t rest rs .welPoll ∧ t.dev = { s.dev with wel := true } ∧
      PollsFor v.cfg.srWelMask v.cfg.srWelMask t := by
  have hstep := h.step_csm (by decide) (by simp only [csmEnabled, h.phase])
  have hcmd : i ∈ [Instr.init, .write, .erase, .bulkErase, .writeEnable] := by rcases hi with rfl | rfl <;> decide
  have hnext := (welIssueSendsWrenAndPolls i (taken rest s) _ hcmd h.phase).1 (takeResult_of_cons h.results)
  rw [latched, if_pos (show (taken rest s).dev.op = .none from hidle)] at hnext
  have hmask : s.cfg.srWelMask = v.cfg.srWelMask := congrArg Cfg.srWelMask h.cfg
  exact ⟨_, hstep.trans hnext, { h with agenda := rfl, results := rfl, phase := rfl }, rfl, rfl, hmask, hmask⟩

/-- WEL_POLL consumes the verdict MATCH (R301). -/
theorem welPoll (h : Running i v s (.csm :: rest) rs .welPoll) (hi : i = .write ∨ i = .erase)
    (hverdict : s.st.verdict = .matched) :
    ∃ t, step s = .next t ∧ Running i v t rest rs .frame ∧ t.dev = s.dev := by
  have hcmd : i ∈ [Instr.init, .write, .erase, .bulkErase, .writeEnable] ∧ i ≠ .writeEnable := by
    rcases hi with rfl | rfl <;> decide
  have hstep := h.step_csm (by decide) (by simp only [csmEnabled, h.phase, hverdict]; decide)
  have hnext := (welPollConsumesTheVerdict i (taken rest s) hcmd.1 h.phase).2.1 hverdict hcmd.2
  exact ⟨_, hstep.trans hnext, { h with agenda := rfl, phase := rfl }, rfl⟩

/-- BUSY_POLL consumes the verdict MATCH (R304). -/
theorem busyPoll (h : Running i v s (.csm :: rest) rs .busyPoll) (hi : i = .write ∨ i = .erase)
    (hverdict : s.st.verdict = .matched) :
    ∃ t, step s = .next t ∧ Running i v t rest rs .advance ∧ t.dev = s.dev := by
  have hcmd : i ∈ [Instr.write, .erase, .bulkErase] ∧ i ≠ .bulkErase := by
    rcases hi with rfl | rfl <;> decide
  have hstep := h.step_csm (by decide) (by simp only [csmEnabled, h.phase, hverdict]; decide)
  have hnext := (busyPollConsumesTheVerdict i (taken rest s) hcmd.1 h.phase).2.1 hverdict hcmd.2
  exact ⟨_, hstep.trans hnext, { h with agenda := rfl, phase := rfl }, rfl⟩

/-- WEL_ISSUE, a sample and WEL_POLL: the idle device is latched (R300, R301). -/
theorem latch (h : Running i v s (.csm :: .sample :: .csm :: rest) (.ok :: rs) .welIssue) (hv : v.cfg.Valid)
    (hi : i = .write ∨ i = .erase) (hidle : s.dev.op = .none) :
    ∃ t : State, Host.Core.run Sys2Proof.core 3 s = .next t ∧ Running i v t rest rs .frame ∧
      t.dev = { s.dev with wel := true } := by
  obtain ⟨s1, run1, h1, hdev1, hpoll⟩ := h.welIssue hi hidle
  have hmatch (other : Byte) : srByte s1.cfg s1.dev other &&& s1.st.pollMask = s1.st.pollMatch := by
    rw [hpoll.mask, hpoll.target, h1.cfg, srByte_wel hv, if_pos (by rw [hdev1])]
  obtain ⟨s2, run2, h2, hdev2, hverdict⟩ := h1.sample hpoll.active hmatch
  obtain ⟨s3, run3, h3, hdev3⟩ := h2.welPoll hi hverdict
  exact ⟨s3, (run_succ run1).trans ((run_succ run2).trans (run_succ run3)), h3, hdev3.trans (hdev2.trans hdev1)⟩

/-- The device's completion, a sample and BUSY_POLL: the operation has taken effect (R262, R303, R304). -/
theorem busy (h : Running i v s (.device :: .sample :: .csm :: rest) rs .busyPoll) (hv : v.cfg.Valid)
    (hi : i = .write ∨ i = .erase) (hpoll : PollsFor v.cfg.srWipMask 0 s) :
    ∃ t : State, Host.Core.run Sys2Proof.core 3 s = .next t ∧ Running i v t rest rs .advance ∧
      t.dev = (completeOp s).dev := by
  have run1 := step_of_deviceNext h.agenda
  rw [completeOp_taken] at run1
  have h1 : Running i v { taken (.sample :: .csm :: rest) s with dev := (completeOp s).dev } (.sample :: .csm :: rest)
      rs .busyPoll := { h with agenda := rfl }
  have hmatch (other : Byte) : srByte s.cfg (completeOp s).dev other &&& s.st.pollMask = s.st.pollMatch := by
    rw [hpoll.mask, hpoll.target, h.cfg, srByte_wip hv, if_neg (not_not.2 (completeOp_dev_op s))]
  obtain ⟨s2, run2, h2, hdev2, hverdict⟩ := h1.sample hpoll.active hmatch
  obtain ⟨s3, run3, h3, hdev3⟩ := h2.busyPoll hi hverdict
  exact ⟨s3, (run_succ run1).trans ((run_succ run2).trans (run_succ run3)), h3, hdev3.trans hdev2⟩

end Running

/-! ## A request of READ or WRITE (R154, R456) -/

theorem toNat_off24 {n : Nat} (h : n < 2 ^ 24) : (off24 n).toNat = n := by
  rw [BitVec.toNat_ofNat, Nat.mod_eq_of_lt h]

/-- A request of at least one word that passes CHECK lies within the array. -/
theorem request_within {s : State} (hv : s.cfg.Valid) (hpass : checkTransfer s = none) (hwords : s.reg.wcount ≠ 0) :
    0 < length s ∧ offset s + length s ≤ s.cfg.capacity := by
  have hpos : 0 < s.reg.wcount.toNat :=
    Nat.pos_of_ne_zero fun h => hwords (BitVec.eq_of_toNat_eq h)
  exact ⟨Nat.mul_pos (by decide) hpos, (checkTransfer_eq_none hv hpass).2 hpos⟩

/-! ## A whole READ (R351 to R354) -/

section Read

variable {v : Fixed} {s : State} {rest : List Agent} {rs : List XResult} {n : Nat}

theorem readDummy_toNat {c : Cfg} (hv : c.Valid) : (readDummy c).toNat = c.dummyCycles := by
  have h := hv.dummy_lt
  rw [readDummy, BitVec.toNat_ofNat, Nat.mod_eq_of_lt (by omega)]

/-- An admitted receive from the idle device at its dummy count: the flash's bytes go to host memory (R208, R256). -/
theorem dmaStep_rx_of_agree {p : Word} {n : Nat} {a : Off24} {k : BitVec 5} (h : s.st.dma = .rx (.host p) n a k)
    (hadm : admits s.cfg p.toNat n = true) (hidle : s.dev.op = .none)
    (hdummy : vcrDummy s.cfg s.dev.vcr = k.toNat) :
    dmaStep s =
      { s with
        mem := Memory.writeList hostDefault s.mem p.toNat (flashBytes s a.toNat n)
        st.rc := true
        st.dma := .idle
        out.busRx := flashBytes s a.toNat n
        out.busLog := fillRx (flashBytes s a.toNat n) s.out.busLog } := by
  simp only [dmaStep, h, dstAdmitted, hadm, if_true, respQiofr_of_agree hidle hdummy, deposit]

/-- The bytes of a part of the flash, laid down in host memory. -/
theorem read_writeList_flashBytes {m : Memory} {p o : Nat} (hm : Memory.wf hostDefault m)
    (hcap : o + n ≤ s.cfg.capacity) (a : Nat) :
    Memory.read hostDefault (Memory.writeList hostDefault m p (flashBytes s o n)) a =
      if p ≤ a ∧ a < p + n then s.flashByte (o + (a - p)) else Memory.read hostDefault m a := by
  rw [Memory.read_writeList hm, length_flashBytes]
  refine if_ctx_congr Iff.rfl (fun ha => ?_) fun _ => rfl
  rw [List.getD_eq_getElem?_getD, flashBytes_get (by omega), Option.getD_some, Nat.mod_eq_of_lt (by omega)]

/-- CHECK latches the operands (R352). -/
theorem running_of_readCheck (hturn : csmNext s rest) (hresults : s.env.draws.results = rs)
    (hp : s.reg.phase = .check) (hcmd : s.reg.cmd = 3) (hop : s.st.op = 3) (hready : s.reg.initState = .ready)
    (hpass : operandFailure .read s = none) (hlen : length s ≠ 0) :
    ∃ t v, step s = .next t ∧ Running .read v t rest rs .frame ∧ t.dev = s.dev ∧ v.cfg = s.cfg ∧ v.mem = s.mem ∧
      v.cur = w32 (offset s) ∧ v.ptr = s.reg.ptr ∧ v.len = w32 (length s) := by
  obtain ⟨t, rfl, -, hnext⟩ := readCheckLatchesOperands (taken rest s) hp hready hpass
  have hstep := (step_check hturn hp (by rw [hcmd]; rfl)).trans (hnext hlen)
  refine ⟨_, _, hstep, ⟨rfl, ?_, hturn.2, rfl, hresults, rfl⟩, rfl, rfl, rfl, rfl, rfl, rfl⟩
  exact congrArg decodeOp hop

namespace Running

/-- FRAME sends the QIOFR and starts the DMA (R353). -/
theorem readFrame (h : Running .read v s (.csm :: rest) (.ok :: .ok :: rs) .frame) :
    ∃ t, step s = .next t ∧ Running .read v t rest rs .waitRx ∧ t.dev = s.dev ∧
      t.st.dma = .rx (.host v.ptr) v.len.toNat (off24 v.cur.toNat) (readDummy v.cfg) := by
  have hstep := h.step_csm (by decide) (by simp only [csmEnabled, h.phase])
  obtain ⟨_, _, rfl, rfl, -, hnext, -⟩ :=
    readFrameStartsTheTransfer .read (taken rest s) _ _ _ _ h.phase (.inl ⟨rfl, rfl, rfl⟩)
  refine ⟨_, hstep.trans (hnext (takeResult_of_cons h.results) (takeResult_of_cons rfl)), ?_, rfl, ?_⟩
  · exact { h with agenda := rfl, results := rfl, phase := rfl }
  rw [← h.ptr, ← h.len, ← h.cur, ← h.cfg]
  rfl

/-- The DMA fills the buffer with the bytes that the idle device drives (R208, R256). -/
theorem receive (h : Running .read v s (.dma :: rest) rs .waitRx)
    (hdma : s.st.dma = .rx (.host v.ptr) v.len.toNat (off24 v.cur.toNat) (readDummy v.cfg))
    (hadm : admits v.cfg v.ptr.toNat v.len.toNat = true) (hidle : s.dev.op = .none)
    (hdummy : vcrDummy v.cfg s.dev.vcr = (readDummy v.cfg).toNat) :
    ∃ t, step s = .next t ∧ t.dev = s.dev ∧ t.st.rc = true ∧ t.st.dma = .idle ∧
      Running .read
        { v with
          mem := Memory.writeList hostDefault v.mem v.ptr.toNat (flashBytes s (off24 v.cur.toNat).toNat v.len.toNat) }
        t rest rs .waitRx := by
  obtain ⟨rfl, hop, hreset, hagenda, hresults, hphase⟩ := h
  have hnext := dmaStep_rx_of_agree (s := taken rest s) hdma hadm hidle hdummy
  exact ⟨_, (step_of_dmaNext hagenda hreset).trans (congrArg Host.Outcome.next hnext), rfl, rfl, rfl, rfl, hop, hreset,
    rfl, hresults, hphase⟩

/-- WAIT_RX ends the READ (R212, R354). -/
theorem readDone (h : Running .read v s (.csm :: rest) rs .waitRx) (hrc : s.st.rc = true) :
    step s = .next (done { taken rest s with st.rc := false, st.csht := s.cfg.cshtDefault }) := by
  have hstep := h.step_csm (by decide) (by simp only [csmEnabled, h.phase, hrc])
  exact hstep.trans ((waitStepsConsumeTheFlag (taken rest s)).1 h.phase hrc).1

end Running

end Read

/-- Settles O57: CHECK, FRAME, the DMA's completion and WAIT_RX one after the other; the request ends within the array,
so no address of the flash wraps. -/
theorem readDeliversTheFlashBytes : Obligations.ReadDeliversTheFlashBytes := by
  intro s rest rs hv hmem hagenda hreset hresults hp hcmd hop hready hpass hwords hidle hdummy hadm
  obtain ⟨hpos, hcap⟩ := request_within hv hpass hwords
  have h24 := hv.capacity_le
  obtain ⟨s1, v, run1, h1, hdev1, hcfg, hsame, hcur, hptr, hlen⟩ :=
    running_of_readCheck ⟨hagenda, hreset⟩ hresults hp hcmd hop hready hpass hpos.ne'
  have hoff : (off24 v.cur.toNat).toNat = offset s := by rw [hcur, toNat_w32 (by omega), toNat_off24 (by omega)]
  have hlen : v.len.toNat = length s := by rw [hlen, toNat_w32 (by omega)]
  obtain ⟨s2, run2, h2, hdev2, hdma2⟩ := h1.readFrame
  have hdev : s2.dev = s.dev := hdev2.trans hdev1
  obtain ⟨s3, run3, hdev3, hrc3, hdma3, h3⟩ :=
    h2.receive hdma2 (by rwa [hcfg, hptr, hlen]) (hdev ▸ hidle) (by rw [hdev, hcfg, hdummy, readDummy_toNat hv])
  have run4 := h3.readDone hrc3
  have hread (a : Nat) : s3.hostByte a =
      if s.reg.ptr.toNat ≤ a ∧ a < s.reg.ptr.toNat + length s then s.flashByte (offset s + (a - s.reg.ptr.toNat))
      else s.hostByte a := by
    have hmem3 : s3.mem = Memory.writeList hostDefault v.mem v.ptr.toNat (flashBytes s2 _ v.len.toNat) := h3.mem
    have hcap2 : offset s + length s ≤ s2.cfg.capacity := by rwa [h2.cfg, hcfg]
    rw [State.hostByte, hmem3, hoff, hlen, hptr, hsame, read_writeList_flashBytes hmem.mem_wf hcap2, State.flashByte,
      hdev]
    rfl
  refine ⟨_, (run_succ run1).trans ((run_succ run2).trans ((run_succ run3).trans (run_succ run4))), rfl, rfl, rfl, rfl,
    congrArg Cfg.cshtDefault (h3.cfg.trans hcfg), rfl, hdma3, fun i hi => ?_, fun a ha => ?_, hdev3.trans hdev, rfl⟩
  · exact (hread _).trans (by rw [if_pos (by omega), Nat.add_sub_cancel_left])
  · exact (hread a).trans (if_neg (by omega))

/-! ## A whole ERASE of one block (R368 to R372) -/

section Erase

variable {v : Fixed} {s : State} {rest : List Agent} {rs : List XResult}

/-- A block that passes CHECK lies within the addresses of a frame. -/
theorem block_within (hv : s.cfg.Valid) (hpass : checkErase s = none) :
    (s.reg.block.toNat + 1) * s.cfg.blockSize ≤ 2 ^ 24 := by
  have hlt : s.reg.block.toNat < s.cfg.blockCount := by
    unfold checkErase at hpass
    split at hpass
    · cases hpass
    next h => omega
  calc (s.reg.block.toNat + 1) * s.cfg.blockSize ≤ s.cfg.blockCount * s.cfg.blockSize := Nat.mul_le_mul_right _ hlt
    _ ≤ 2 ^ 24 := hv.blocks_fit.trans hv.capacity_le

/-- CHECK sets the blocks (R369). -/
theorem running_of_eraseCheck (hturn : csmNext s rest) (hresults : s.env.draws.results = rs)
    (hp : s.reg.phase = .check) (hcmd : s.reg.cmd = 5) (hop : s.st.op = 5) (hready : s.reg.initState = .ready)
    (hpass : operandFailure .erase s = none) (hcount : s.reg.count = 1) :
    ∃ t v, step s = .next t ∧ Running .erase v t rest rs .welIssue ∧ t.dev = s.dev ∧ v.cfg = s.cfg ∧ v.mem = s.mem ∧
      v.bi = s.reg.block ∧ v.bn = s.reg.block + 1 := by
  obtain ⟨t, rfl, -, hnext⟩ := eraseCheckSetsTheBlocks (taken rest s) hp hready hpass
  have hsome : (taken rest s).reg.count ≠ 0 := hcount.trans_ne (by decide)
  have hstep := (step_check hturn hp (by rw [hcmd]; rfl)).trans (hnext hsome)
  refine ⟨_, _, hstep, ⟨rfl, congrArg decodeOp hop, hturn.2, rfl, hresults, rfl⟩, rfl, rfl, rfl, rfl, ?_⟩
  have hbn : w32 (s.reg.block.toNat + s.reg.count.toNat) = s.reg.block + s.reg.count := by
    rw [w32, BitVec.ofNat_add, BitVec.ofNat_toNat, BitVec.ofNat_toNat, BitVec.setWidth_eq, BitVec.setWidth_eq]
  exact hbn.trans (by rw [hcount])

/-- In FRAME the erase of the block, whichever instruction its size picks, and the busy poll (R370, R371). -/
theorem exec_erase_frame_ok {s0 : State} (hv : s.cfg.Valid) (hp : s.reg.phase = .frame)
    (hfits : s.st.bi.toNat * s.cfg.blockSize < 2 ^ 24) (hok : takeResult s = (.ok, s0)) :
    ∃ kind budget f, exec .erase s =
      .next
        { polls s.cfg.srWipMask 0 budget
            (sent f .ok [] (starts (.erase kind (s.st.bi.toNat * s.cfg.blockSize) s.cfg.blockSize) s0)) with
          reg.phase := .busyPoll } := by
  obtain ⟨a, _, _, _, ha, rfl, rfl, -, hnext, -⟩ := eraseFrameStartsTheErase s s0 hp
  obtain ⟨hsse, hse, -⟩ := hnext hok
  have hbase : a.toNat - a.toNat % s.cfg.blockSize = s.st.bi.toNat * s.cfg.blockSize := by
    rw [ha, toNat_off24 hfits, Nat.mul_mod_left, Nat.sub_zero]
  rw [← hbase]
  rcases hv.block_size with h | h <;> rw [h]
  · exact ⟨.sse, _, _, hsse h⟩
  · exact ⟨.se, _, _, hse (by omega)⟩

namespace Running

/-- FRAME starts the erase of the block in the latched device, and the busy poll (R370, R371). -/
theorem eraseFrame (h : Running .erase v s (.csm :: rest) (.ok :: rs) .frame) (hv : v.cfg.Valid)
    (hidle : s.dev.op = .none) (hwel : s.dev.wel = true) (hfits : v.bi.toNat * v.cfg.blockSize < 2 ^ 24) :
    ∃ t kind, step s = .next t ∧ Running .erase v t rest rs .busyPoll ∧ PollsFor v.cfg.srWipMask 0 t ∧
      t.dev = { s.dev with op := .erase kind (v.bi.toNat * v.cfg.blockSize) v.cfg.blockSize, age := 0 } := by
  have hstep := h.step_csm (by decide) (by simp only [csmEnabled, h.phase])
  rw [← h.cfg, ← h.bi] at hfits
  obtain ⟨kind, budget, f, hnext⟩ :=
    exec_erase_frame_ok (s := taken rest s) (h.cfg ▸ hv) h.phase hfits (takeResult_of_cons h.results)
  rw [starts, if_pos ⟨hidle, hwel⟩] at hnext
  rw [← h.cfg, ← h.bi]
  exact ⟨_, kind, hstep.trans hnext, { h with agenda := rfl, results := rfl, phase := rfl }, ⟨rfl, rfl, rfl⟩, rfl⟩

/-- ADVANCE past the last block ends the ERASE (R372). -/
theorem eraseDone (h : Running .erase v s (.csm :: rest) rs .advance) (hlast : v.bi + 1 = v.bn) :
    step s = .next (done { taken rest s with st.bi := s.st.bi + 1 }) := by
  have hstep := h.step_csm (by decide) (by simp only [csmEnabled, h.phase])
  have hend : s.st.bi + 1 = s.st.bn := by rw [h.bi, h.bn, hlast]
  exact hstep.trans ((eraseAndVerifyAdvance (taken rest s) h.phase).1 hend)

end Running

end Erase

/-- Settles O58: CHECK, the latch, the erase started, the device's completion with the busy poll, and ADVANCE past the
one block. -/
theorem eraseLeavesTheBlockErased : Obligations.EraseLeavesTheBlockErased := by
  intro s rest rs hv hagenda hreset hresults hp hcmd hop hready hpass hcount hidle
  have hsucc : (s.reg.block.toNat + 1) * s.cfg.blockSize = s.reg.block.toNat * s.cfg.blockSize + s.cfg.blockSize :=
    Nat.succ_mul _ _
  have hwithin := block_within hv hpass
  have hsize := hv.block_size
  obtain ⟨s1, v, run1, h1, hdev1, hcfg, hmem, hbi, hbn⟩ :=
    running_of_eraseCheck ⟨hagenda, hreset⟩ hresults hp hcmd hop hready hpass hcount
  have hv' : v.cfg.Valid := hcfg ▸ hv
  obtain ⟨s2, run2, h2, hdev2⟩ := h1.latch hv' (.inr rfl) (by rw [hdev1, hidle])
  rw [hdev1] at hdev2
  obtain ⟨s3, kind, run3, h3, hpoll, hdev3⟩ :=
    h2.eraseFrame hv' (by rw [hdev2, hidle]) (by rw [hdev2]) (by rw [hbi, hcfg]; omega)
  obtain ⟨s4, run4, h4, hdev4⟩ := h3.busy hv' (.inr rfl) hpoll
  have run5 := h4.eraseDone (by rw [hbi, hbn])
  rw [completeOp_of_erase (by rw [hdev3]), hdev3, hdev2, hbi, hcfg] at hdev4
  have hread (o : Nat) : s4.flashByte o =
      if s.reg.block.toNat * s.cfg.blockSize ≤ o ∧ o < s.reg.block.toNat * s.cfg.blockSize + s.cfg.blockSize then 0xFF
      else s.flashByte o := by
    rw [State.flashByte, hdev4]
    exact read_eraseBytes _ _ _ o
  refine ⟨_, (run_succ run1).trans ((run_add 5 run2).trans ((run_succ run3).trans ((run_add 1 run4).trans
    (run_succ run5)))), rfl, rfl, rfl, rfl, fun o hlo hhi => ?_, fun o ho => ?_, ?_, ?_, h4.mem.trans hmem, rfl⟩
  · exact (hread o).trans (if_pos (by omega))
  · exact (hread o).trans (if_neg (by omega))
  · exact congrArg Device.wel hdev4
  · exact congrArg Device.op hdev4

/-! ## The number of chunks (R361) -/

section ChunkCount

variable {page cur stop : Nat}

theorem chunkCount_pos {o n : Nat} (hpage : 0 < page) (hn : 0 < n) : 0 < chunkCount page o n :=
  Nat.div_pos (by omega) hpage

/-- Where the first chunk is the last there is one. -/
theorem chunkCount_of_last (hlt : cur < stop) (hlast : cur + firstChunk page cur stop = stop) :
    chunkCount page cur (stop - cur) = 1 := by
  unfold firstChunk at hlast
  rw [chunkCount, Nat.div_eq_of_lt_le] <;> omega

/-- Where the request goes on past the first chunk the rest has its own number. -/
theorem chunkCount_of_not_last (hpage : 0 < page) (hlt : cur + firstChunk page cur stop < stop) :
    chunkCount page cur (stop - cur) =
      chunkCount page (cur + firstChunk page cur stop) (stop - (cur + firstChunk page cur stop)) + 1 := by
  have hmod := Nat.mod_lt cur hpage
  rw [chunkCount, chunkCount, mod_page_of_firstChunk_lt hpage hlt, ← Nat.add_div_right _ hpage]
  congr 1
  unfold firstChunk at hlt ⊢
  omega

end ChunkCount

/-! ## The page program of a chunk (R257, R262) -/

section Program

variable {page cap cur o : Nat} {m : Memory} {data : List Byte}

/-- The page latch at a place of the page that begins at `base`. -/
theorem getD_fillLatch (hpage : 0 < page) (hin : cur % page + data.length ≤ page) {j : Nat} (hj : j < page) :
    (fillLatch page (List.replicate page 0xFF) cur data).getD j 0 =
      if cur % page ≤ j ∧ j < cur % page + data.length then data.getD (j - cur % page) 0 else 0xFF := by
  have hplace (i : Nat) (hi : i < data.length) : (cur + i) % page = cur % page + i := by
    rw [Nat.add_mod, Nat.mod_eq_of_lt (show i < page by omega), Nat.mod_eq_of_lt (by omega)]
  rw [List.getD_eq_getElem?_getD]
  split
  next hj' =>
    obtain ⟨i, rfl⟩ : ∃ i, j = cur % page + i := ⟨j - cur % page, by omega⟩
    have hi : i < data.length := by omega
    rw [← hplace i hi, fillLatch_last hpage (by simp) (List.getElem?_eq_getElem hi), hplace i hi,
      Nat.add_sub_cancel_left, List.getD_eq_getElem _ _ hi, Option.getD_some]
    intro k hik hk
    rw [hplace k hk, hplace i hi]
    omega
  next hj' =>
    rw [fillLatch_other _ _ _ _ _ fun i hi => by rw [hplace i hi]; omega, List.getElem?_replicate_of_lt hj,
      Option.getD_some]

/-- A chunk within its page: the AND of old and new in its range, every other byte as before. -/
theorem read_programBytes_chunk (hm : Memory.wf flashDefault m) (hpage : 0 < page)
    (hin : cur % page + data.length ≤ page) (hcap : cur + data.length ≤ cap) :
    Memory.read flashDefault
        (programBytes cap m (cur - cur % page) (fillLatch page (List.replicate page 0xFF) cur data)) o =
      if cur ≤ o ∧ o < cur + data.length then Memory.read flashDefault m o &&& data.getD (o - cur) 0
      else Memory.read flashDefault m o := by
  have hle := Nat.mod_le cur page
  have hones (b : Byte) : b &&& 0xFF = b := BitVec.and_allOnes
  rw [read_programBytes hm, length_fillLatch, List.length_replicate]
  by_cases hpg : cur - cur % page ≤ o ∧ o < cur - cur % page + page ∧ o < cap
  · rw [if_pos hpg, getD_fillLatch hpage hin (by omega)]
    by_cases ho : cur ≤ o ∧ o < cur + data.length
    · rw [if_pos ho, if_pos (by omega), show o - (cur - cur % page) - cur % page = o - cur by omega]
    · rw [if_neg ho, if_neg (by omega), hones]
  · rw [if_neg hpg, if_neg (by omega)]

end Program

/-! ## A whole WRITE (R357 to R365) -/

section Write

variable {v : Fixed} {s : State} {rest : List Agent} {rs : List XResult}

/-- From array `a` to array `a'` the bytes from `cur` up to `stop` have been programmed with host memory's bytes from
`ptr` on, and no other has changed. -/
def Programmed (m : Memory) (ptr cur stop : Nat) (a a' : Memory) : Prop :=
  ∀ o, Memory.read flashDefault a' o =
    if cur ≤ o ∧ o < stop then Memory.read flashDefault a o &&& Memory.read hostDefault m (ptr + (o - cur))
    else Memory.read flashDefault a o

theorem Programmed.trans {m a b c : Memory} {ptr cur mid stop : Nat} (hab : Programmed m ptr cur mid a b)
    (hbc : Programmed m (ptr + (mid - cur)) mid stop b c) (hlo : cur ≤ mid) (hhi : mid ≤ stop) :
    Programmed m ptr cur stop a c := by
  intro o
  rw [hbc o, hab o]
  by_cases hfirst : cur ≤ o ∧ o < mid
  · rw [if_neg (by omega), if_pos hfirst, if_pos (by omega)]
  · rw [if_neg hfirst]
    by_cases hlater : mid ≤ o ∧ o < stop
    · rw [if_pos hlater, if_pos (by omega), show ptr + (mid - cur) + (o - mid) = ptr + (o - cur) by omega]
    · rw [if_neg hlater, if_neg (by omega)]

/-- A WRITE stands before a chunk: the chunk is the law's, the device idle, and the rest of the buffer admitted and left
alone. -/
structure BeforeChunk (v : Fixed) (s : State) (turns : List Agent) (results : List XResult) : Prop
    extends Running .write v s turns results .welIssue where
  valid : v.cfg.Valid
  chunkOk : ChunkOk s
  idle : s.dev.op = .none
  array_wf : Memory.wf flashDefault s.dev.array
  clean : v.stale = []
  admitted : admits v.cfg v.ptr.toNat (v.stop.toNat - v.cur.toNat) = true

namespace Running

/-- FRAME sends the EQPP of the chunk and starts the DMA (R360). -/
theorem writeFrame (h : Running .write v s (.csm :: rest) (.ok :: .ok :: rs) .frame) :
    ∃ t, step s = .next t ∧ Running .write v t rest rs .waitTx ∧ t.dev = s.dev ∧
      t.st.dma = .tx v.ptr v.chunk.toNat (off24 v.cur.toNat) := by
  have hstep := h.step_csm (by decide) (by simp only [csmEnabled, h.phase])
  obtain ⟨_, _, rfl, rfl, hnext, -, -⟩ := writeFrameStartsTheTransfer (taken rest s) _ _ h.phase
  refine ⟨_, hstep.trans (hnext (takeResult_of_cons h.results) (takeResult_of_cons rfl)), ?_, rfl, ?_⟩
  · exact { h with agenda := rfl, results := rfl, phase := rfl }
  · rw [← h.ptr, ← h.chunk, ← h.cur]
    rfl

/-- The DMA moves the chunk's bytes, the host having left them alone, and the latched device starts the program of
their page (R208, R257). -/
theorem transmit (h : Running .write v s (.dma :: rest) rs .waitTx)
    (hdma : s.st.dma = .tx v.ptr v.chunk.toNat (off24 v.cur.toNat))
    (hadm : admits v.cfg v.ptr.toNat v.chunk.toNat = true) (hclean : v.stale = []) (hidle : s.dev.op = .none)
    (hwel : s.dev.wel = true) :
    ∃ t, step s = .next t ∧ Running .write v t rest rs .waitTx ∧ t.st.tc = true ∧
      t.dev = { s.dev with
        op := .program ((off24 v.cur.toNat).toNat - (off24 v.cur.toNat).toNat % v.cfg.pageSize)
          (fillLatch v.cfg.pageSize (List.replicate v.cfg.pageSize 0xFF) (off24 v.cur.toNat).toNat
            (Memory.readList hostDefault v.mem v.ptr.toNat v.chunk.toNat))
        age := 0 } := by
  have hmoved : txBytes v.ptr.toNat v.chunk.toNat (taken rest s) =
      (Memory.readList hostDefault v.mem v.ptr.toNat v.chunk.toNat, taken rest s) := by
    rw [txBytes_clean, ← h.mem]
    · rfl
    · rw [show (taken rest s).env.stale = [] from h.stale.trans hclean]
      exact nofun
  have hnext := dmaStep_tx (s := taken rest s) hdma (h.cfg ▸ hadm)
  rw [hmoved, respEqpp_of_latched (s := taken rest s) _ _ hidle hwel] at hnext
  rw [← h.cfg]
  exact ⟨_, (step_of_dmaNext h.agenda h.inReset).trans (congrArg Host.Outcome.next hnext),
    { h with agenda := rfl }, rfl, rfl⟩

/-- WAIT_TX starts the busy poll (R212, R363). -/
theorem waitTx (h : Running .write v s (.csm :: rest) rs .waitTx) (htc : s.st.tc = true) :
    ∃ t, step s = .next t ∧ Running .write v t rest rs .busyPoll ∧ PollsFor v.cfg.srWipMask 0 t ∧ t.dev = s.dev := by
  have hstep := h.step_csm (by decide) (by simp only [csmEnabled, h.phase, htc])
  have hnext := (waitStepsConsumeTheFlag (taken rest s)).2 h.phase htc
  rw [← h.cfg]
  exact ⟨_, hstep.trans hnext, { h with agenda := rfl, phase := rfl }, ⟨rfl, rfl, rfl⟩, rfl⟩

/-- ADVANCE past the last chunk ends the WRITE (R364). -/
theorem writeDone (h : Running .write v s (.csm :: rest) rs .advance) (hlast : v.cur + v.chunk = v.stop) :
    step s = .next (done { taken rest s with
      st.cur := s.st.cur + s.st.chunk
      st.ptr := s.st.ptr + s.st.chunk }) := by
  have hstep := h.step_csm (by decide) (by simp only [csmEnabled, h.phase])
  have hend : s.st.cur + s.st.chunk = s.st.stop := by rw [h.cur, h.chunk, h.stop, hlast]
  obtain ⟨_, rfl, hdone, -⟩ := writeAdvancesByTheChunk (taken rest s) h.phase
  exact hstep.trans (hdone hend)

end Running

theorem getD_readList {d : Byte} {m : Memory} {a n i : Nat} (h : i < n) :
    (Memory.readList d m a n).getD i 0 = Memory.read d m (a + i) := by
  simp [Memory.readList, h]

namespace BeforeChunk

/-- The law of the chunk, in what stays fixed. -/
theorem bounds {turns : List Agent} (h : BeforeChunk v s turns rs) :
    4 ≤ v.chunk.toNat ∧ v.cur.toNat % v.cfg.pageSize + v.chunk.toNat ≤ v.cfg.pageSize ∧
      v.cur.toNat + v.chunk.toNat ≤ v.stop.toNat ∧
      v.chunk.toNat = firstChunk v.cfg.pageSize v.cur.toNat v.stop.toNat ∧ v.stop.toNat ≤ 2 ^ 24 ∧
      v.stop.toNat ≤ v.cfg.capacity := by
  obtain ⟨hpos, hpage, hwithin, hlaw, hcap, -, -, -⟩ := h.chunkOk
  rw [h.stop, h.cfg] at hcap
  rw [withinPage, h.cfg, h.cur, h.chunk] at hpage
  rw [h.cur, h.chunk, h.stop] at hwithin
  rw [h.chunk, h.cfg, h.cur, h.stop] at hlaw
  exact ⟨h.chunk ▸ hpos, hpage, hwithin, hlaw, hcap.trans h.valid.capacity_le, hcap⟩

theorem toNat_end {turns : List Agent} (h : BeforeChunk v s turns rs) :
    (v.cur + v.chunk).toNat = v.cur.toNat + v.chunk.toNat := by
  obtain ⟨-, -, hwithin, -, h24, -⟩ := h.bounds
  exact BitVec.toNat_add_of_lt (by omega)

/-- A chunk that is not the last ends before the request does. -/
theorem end_lt {turns : List Agent} (h : BeforeChunk v s turns rs) (hmore : v.cur + v.chunk ≠ v.stop) :
    v.cur.toNat + v.chunk.toNat < v.stop.toNat := by
  obtain ⟨-, -, hwithin, -, -, -⟩ := h.bounds
  exact lt_of_le_of_ne hwithin fun he => hmore (BitVec.eq_of_toNat_eq (h.toNat_end.trans he))

/-- The nine turns of a chunk up to its ADVANCE (R359): its bytes are programmed. -/
theorem program (h : BeforeChunk v s ([.csm, .sample, .csm, .csm, .dma, .csm, .device, .sample, .csm] ++ rest)
      (.ok :: .ok :: .ok :: rs)) :
    ∃ t : State, Host.Core.run Sys2Proof.core 9 s = .next t ∧ Running .write v t rest rs .advance ∧
      t.dev.op = .none ∧ Memory.wf flashDefault t.dev.array ∧
      Programmed v.mem v.ptr.toNat v.cur.toNat (v.cur.toNat + v.chunk.toNat) s.dev.array t.dev.array := by
  obtain ⟨hpos, hpage, hwithin, -, h24, hcap⟩ := h.bounds
  have hadm : admits v.cfg v.ptr.toNat v.chunk.toNat = true := admits_sub h.admitted le_rfl (by omega)
  obtain ⟨s1, run1, h1, hdev1⟩ := h.latch h.valid (.inl rfl) h.idle
  obtain ⟨s2, run2, h2, hdev2, hdma2⟩ := h1.writeFrame
  have hdev2 := hdev2.trans hdev1
  obtain ⟨s3, run3, h3, htc3, hdev3⟩ := h2.transmit hdma2 hadm h.clean (by rw [hdev2, h.idle]) (by rw [hdev2])
  obtain ⟨s4, run4, h4, hpoll4, hdev4⟩ := h3.waitTx htc3
  obtain ⟨t, run5, h5, hdev5⟩ := h4.busy h.valid (.inl rfl) hpoll4
  rw [toNat_off24 (by omega), hdev2] at hdev3
  rw [completeOp_of_program (by rw [hdev4, hdev3]), hdev4, hdev3, h4.cfg] at hdev5
  have harray : t.dev.array = programBytes v.cfg.capacity s.dev.array _ _ := congrArg Device.array hdev5
  refine ⟨t, (run_add 6 run1).trans ((run_succ run2).trans ((run_succ run3).trans ((run_succ run4).trans run5))), h5,
    congrArg Device.op hdev5, harray ▸ wf_programBytes h.array_wf _, fun o => ?_⟩
  have hlen := Memory.length_readList hostDefault v.mem v.ptr.toNat v.chunk.toNat
  have hpageSize := h.valid.page_ge
  rw [harray, read_programBytes_chunk h.array_wf (by omega) (by rwa [hlen]) (by rw [hlen]; omega), hlen]
  exact if_ctx_congr Iff.rfl (fun ho => by rw [getD_readList (by omega)]) fun _ => rfl

/-- ADVANCE to the next chunk (R364). -/
theorem next {t : State} {turns : List Agent} {results : List XResult} (h : BeforeChunk v s turns results)
    (ht : Running .write v t (.csm :: rest) rs .advance) (hmore : v.cur + v.chunk ≠ v.stop)
    (hidle : t.dev.op = .none) (hwf : Memory.wf flashDefault t.dev.array) :
    ∃ u w, step t = .next u ∧ u.dev = t.dev ∧ BeforeChunk w u rest rs ∧ w.cfg = v.cfg ∧ w.mem = v.mem ∧
      w.stop = v.stop ∧ w.cur.toNat = v.cur.toNat + v.chunk.toNat ∧ w.ptr.toNat = v.ptr.toNat + v.chunk.toNat := by
  have hstep := (ht.step_csm (by decide) (by simp only [csmEnabled, ht.phase])).trans
    (exec_write_advance (s := taken rest t) ht.phase)
  have hvalid : t.cfg.Valid := ht.cfg ▸ h.valid
  have hok : ChunkOk (taken rest t) := chunkOk_of_engine h.chunkOk (engine_of_fixed (ht.fixed.trans h.fixed.symm))
  have hmore' : t.st.cur + t.st.chunk ≠ t.st.stop := by rwa [ht.cur, ht.chunk, ht.stop]
  have hnext := writeAdvance_chunkOk (s := taken rest t) hvalid hok hmore'
  rw [writeAdvance_of_not_end (s := taken rest t) hmore'] at hstep hnext
  have hle := admits_le h.admitted
  have hlt := h.end_lt hmore
  have hcur : (t.st.cur + t.st.chunk).toNat = v.cur.toNat + v.chunk.toNat := by rw [ht.cur, ht.chunk, h.toNat_end]
  have hptr : (t.st.ptr + t.st.chunk).toNat = v.ptr.toNat + v.chunk.toNat := by
    rw [ht.ptr, ht.chunk, BitVec.toNat_add_of_lt (by omega)]
  have hadm : admits t.cfg (t.st.ptr + t.st.chunk).toNat (t.st.stop.toNat - (t.st.cur + t.st.chunk).toNat) = true := by
    rw [ht.cfg, ht.stop, hcur, hptr]
    exact admits_sub h.admitted (by omega) (by omega)
  refine ⟨_, fixed _, hstep, rfl, ⟨⟨rfl, ht.op, ht.inReset, rfl, ht.results, rfl⟩, hvalid, hnext, hidle, hwf, ?_, hadm⟩,
    ht.cfg, ht.mem, ht.stop, hcur, hptr⟩
  exact ht.stale.trans h.clean

/-- Chunk after chunk to the end of the request, as many as the law says (R361, R364). -/
theorem writes {k : Nat} (h : BeforeChunk v s ((List.replicate k chunkTurns).flatten ++ rest)
      (List.replicate (3 * k) .ok ++ rs))
    (hk : k = chunkCount v.cfg.pageSize v.cur.toNat (v.stop.toNat - v.cur.toNat)) :
    ∃ u : State, Host.Core.run Sys2Proof.core (10 * k) s = .next (done u) ∧ u.mem = v.mem ∧ u.env.agenda = rest ∧
      Programmed v.mem v.ptr.toNat v.cur.toNat v.stop.toNat s.dev.array u.dev.array := by
  have hpage : 0 < v.cfg.pageSize := by have := h.valid.page_ge; omega
  induction k generalizing v s with
  | zero =>
    obtain ⟨hpos, -, hwithin, -, -, -⟩ := h.bounds
    exact absurd hk (chunkCount_pos hpage (by omega)).ne
  | succ k ih =>
    obtain ⟨hpos, -, hwithin, hlaw, -, -⟩ := h.bounds
    have hturns : (List.replicate (k + 1) chunkTurns).flatten ++ rest =
        [.csm, .sample, .csm, .csm, .dma, .csm, .device, .sample, .csm] ++
          .csm :: ((List.replicate k chunkTurns).flatten ++ rest) := by
      rw [List.replicate_succ, List.flatten_cons, List.append_assoc]
      rfl
    rw [hturns] at h
    obtain ⟨t, run9, ht, hidle, hwf, hchunk⟩ := h.program
    by_cases hlast : v.cur + v.chunk = v.stop
    · have hstop : v.cur.toNat + v.chunk.toNat = v.stop.toNat := by rw [← h.toNat_end, hlast]
      have hone := chunkCount_of_last (page := v.cfg.pageSize) (cur := v.cur.toNat) (stop := v.stop.toNat) (by omega)
        (hlaw ▸ hstop)
      obtain rfl : k = 0 := by omega
      refine ⟨_, (run_add 1 run9).trans (run_succ (ht.writeDone hlast)), ht.mem, rfl, ?_⟩
      exact hstop ▸ hchunk
    · obtain ⟨u, w, run10, hdev, hnext, hcfg, hmem, hstop, hcur, hptr⟩ := h.next ht hlast hidle hwf
      have hmany := chunkCount_of_not_last (cur := v.cur.toNat) hpage (hlaw ▸ h.end_lt hlast)
      rw [← hlaw] at hmany
      obtain ⟨x, runs, hxmem, hxrest, hrest⟩ := ih hnext (by rw [hcfg, hcur, hstop]; omega) (hcfg ▸ hpage)
      refine ⟨x, ?_, hxmem.trans hmem, hxrest, ?_⟩
      · rw [show 10 * (k + 1) = 9 + (10 * k + 1) by omega]
        exact (run_add _ run9).trans ((run_succ run10).trans runs)
      · rw [hdev, hmem, hcur, hptr, hstop] at hrest
        exact hchunk.trans (by rwa [Nat.add_sub_cancel_left]) (by omega) hwithin

end BeforeChunk

/-- CHECK forms the first chunk (R358). -/
theorem running_of_writeCheck (hturn : csmNext s rest) (hresults : s.env.draws.results = rs)
    (hp : s.reg.phase = .check) (hcmd : s.reg.cmd = 4) (hop : s.st.op = 4) (hready : s.reg.initState = .ready)
    (hpass : operandFailure .write s = none) (hlen : length s ≠ 0) :
    ∃ t v, step s = .next t ∧ t = writeCheck (taken rest s) ∧ Running .write v t rest rs .welIssue ∧ t.dev = s.dev ∧
      v.cfg = s.cfg ∧ v.mem = s.mem ∧ v.stale = s.env.stale ∧ v.cur = w32 (offset s) ∧
      v.stop = w32 (offset s + length s) ∧ v.ptr = s.reg.ptr := by
  have hstep := (step_check hturn hp (by rw [hcmd]; rfl)).trans (exec_write_check (s := taken rest s) hp hready hpass)
  have hcheck := writeCheck_of_nonempty (s := taken rest s) hlen
  rw [hcheck] at hstep
  exact ⟨_, fixed _, hstep, hcheck.symm, ⟨rfl, congrArg decodeOp hop, hturn.2, rfl, hresults, rfl⟩, rfl, rfl, rfl, rfl,
    rfl, rfl, rfl⟩

end Write

/-- Settles O59: CHECK forms the first chunk, and the chunks follow one another to the end of the request. -/
theorem writeProgramsTheWholeRange : Obligations.WriteProgramsTheWholeRange := by
  intro s rest rs k hv hmem hk hagenda hreset hresults hp hcmd hop hready hpass hwords hidle hclean hadm
  obtain ⟨hpos, hcap⟩ := request_within hv hpass hwords
  have h24 := hv.capacity_le
  obtain ⟨t, v, run1, ht, h, hdev, hcfg, hsame, hstale, hcur, hstop, hptr⟩ :=
    running_of_writeCheck ⟨hagenda, hreset⟩ hresults hp hcmd hop hready hpass hpos.ne'
  have hok : ChunkOk t := ht ▸ writeCheck_chunkOk (s := taken _ s) hv hpass hpos.ne'
  have hcur : v.cur.toNat = offset s := by rw [hcur, toNat_w32 (by omega)]
  have hstop : v.stop.toNat = offset s + length s := by rw [hstop, toNat_w32 (by omega)]
  have hfirst : BeforeChunk v t _ _ :=
    ⟨h, hcfg ▸ hv, hok, hdev ▸ hidle, hdev ▸ hmem.array_wf, hstale.trans hclean, by
      rwa [hcfg, hptr, hcur, hstop, Nat.add_sub_cancel_left]⟩
  obtain ⟨u, runs, humem, hurest, hprogrammed⟩ :=
    hfirst.writes (by rw [hk, hcfg, hcur, hstop, Nat.add_sub_cancel_left])
  rw [hsame, hptr, hcur, hstop, hdev] at hprogrammed
  refine ⟨done u, ?_, rfl, rfl, rfl, rfl, fun i hi => ?_, fun o ho => ?_, humem.trans hsame, hurest⟩
  · rw [Nat.add_comm]
    exact (run_succ run1).trans runs
  · exact (hprogrammed _).trans (by rw [if_pos (by omega), Nat.add_sub_cancel_left]; rfl)
  · exact (hprogrammed o).trans (if_neg (by omega))

end Sys2Proof.Proofs
end
